-- ==== Sys2Proof/Word.lean ====
section
/-! DEFINITION. The words of CSCORE: 32-bit registers and memory words, binary32 patterns, command words and their
fields (spec/00_scope.md R10, R15, R16; spec/30_encoding.md R100). -/

namespace Sys2Proof

/-- A 32-bit register, memory word or immediate (R72). -/
abbrev Word := BitVec 32

/-- A binary32 value, held as its 32-bit pattern (R10, R21: "a value of type `F` is held as its bit pattern"). -/
abbrev F := BitVec 32

/-- One command word (R100). -/
abbrev Command := BitVec 64

/-- The `unit` field of a command word (R100, R103). -/
abbrev UnitAddr := BitVec 16

/-- The `sub` field of a command word (R100). -/
abbrev SubField := BitVec 8

end Sys2Proof
end

