-- ==== Sys2Proof/Config.lean ====
section
/-! DEFINITION. The configuration of CSCORE (spec/00_scope.md R8): every literal of the document as a named constant at
the document's value; the open parameters as a record that every operation takes as an argument; and the opaque
constants the machine runs with, of which nothing can be proved but what the spec says of them. -/

namespace Sys2Proof.Config

/-! ## Integer parameters (R8, R9) -/

/-- `AP_CAP`: words of every MAP delay buffer. -/
def apCap : Nat := 19200
/-- `DL_CAP`: words of every MDLY and MTAP delay buffer (90_conflicts.md C2: not twice `AP_CAP`). -/
def dlCap : Nat := 384000
/-- `MOD_PERIOD`: samples between two recomputations of modulated taps. -/
def modPeriod : Nat := 8
/-- `BLOCK`: the largest number of samples one block command processes. -/
def block : Nat := 128
/-- `FBQ_CAP`: words of a delay line's feedback queue. -/
def fbqCap : Nat := 256
/-- `MAX_STAGES`: all-pass stages of a diffuser. -/
def maxStages : Nat := 12
/-- `MAX_TAPS`: taps of a multitap delay. -/
def maxTaps : Nat := 256
/-- `MAX_LINES`: delay lines of a channel. -/
def maxLines : Nat := 12
/-- `RB_CAP`: words of the free-standing random buffer, 3 times `MAX_TAPS`. -/
def rbCap : Nat := 768
/-- The number of random values a diffuser draws (44_diffuser.md R223). -/
def diffDraws : Nat := 36
/-- `LCG_M`: modulus of the generator. -/
def lcgM : Nat := 2 ^ 32

/-! ## Real parameters, as binary32 patterns (R8, R12) -/

/-- `FS` = 48000. -/
def fs : F := 0x473B8000#32
/-- `TWO_PI`, the binary32 nearest 2π. -/
def twoPi : F := 0x40C90FDB#32
/-- `FC_CLAMP` = 0.4990. -/
def fcClamp : F := 0x3EFF7CEE#32
/-- `SHELF_Q` = 0.5. -/
def shelfQ : F := 0x3F000000#32
/-- `SHELF_GAIN_LIM` = 60 dB. -/
def shelfGainLim : F := 0x42700000#32
/-- `FLUSH_THRESH` = 1e-9. -/
def flushThresh : F := 0x3089705F#32
/-- `MT_DECAY_K` = 3.3. -/
def mtDecayK : F := 0x40533333#32
/-- `MT_GAIN_NUM` = 3. -/
def mtGainNum : F := 0x40400000#32
/-- `MT_DB_MIN` = -20 dB. -/
def mtDbMin : F := 0xC1A00000#32
/-- The width of the tap gain range in dB, 20 (46_multitap.md R271). -/
def mtDbWidth : F := 0x41A00000#32
/-- `DIFF_SCALE_LO` = 0.85. -/
def diffScaleLo : F := 0x3F59999A#32
/-- `DIFF_SCALE_W` = 0.3. -/
def diffScaleW : F := 0x3E99999A#32
/-- The factor 0.1 of the stage delay (44_diffuser.md R221). -/
def tenth : F := 0x3DCCCCCD#32
/-- `DECAY_DB` = -60 dB. -/
def decayDb : F := 0xC2700000#32

/-- `DEFAULTS` of the ten normalized parameters, in the order of the keys (R8, 49_engine.md R349). -/
def defaultParams : Vector F 10 :=
  #v[0x00000000#32, 0x3F000000#32, 0x3F000000#32, 0x3F333333#32, 0x3E99999A#32,
     0x00000000#32, 0x3F800000#32, 0x3F000000#32, 0x3E99999A#32, 0x3E99999A#32]

/-- `DEFAULTS.inputMix` = 1.0, no normalized parameter (90_conflicts.md C6). -/
def defaultInputMix : F := 0x3F800000#32

/-! ## `POST_TAP_POINT` (47_delayline.md R292) -/

/-- Where a delay line's post-diffuser output is captured. -/
inductive PostTapPoint
  | afterDiffuser
  | endOfChain
  deriving DecidableEq, Repr, Inhabited

/-- "CSCORE as specified uses `after_diffuser`" (R292). -/
def postTapPoint : PostTapPoint := .afterDiffuser

/-! ## The channel configuration record of `DERIVE` (49_engine.md R361) -/

/-- The two kinds of shelf, wired into the instance (10_state.md R24, R28). -/
inductive ShelfKind
  | low
  | high
  deriving DecidableEq, Repr, Inhabited

/-- The five coefficients of a shelf (42_shelf.md R173). -/
structure ShelfCoeffs where
  b0 : F
  b1 : F
  b2 : F
  a1 : F
  a2 : F
  deriving DecidableEq, Repr, Inhabited

/-- Fields of `K` written to an MDLY (R361). -/
structure DelayConfig where
  dly : Nat
  modA : F
  modR : F
  deriving DecidableEq, Repr, Inhabited

/-- Fields of `K` written to the MTAP (R361). -/
structure MultitapConfig where
  taps : Nat
  len : Nat
  decay : F
  seed : Word
  deriving DecidableEq, Repr, Inhabited

/-- Fields of `K` written to a DIFF (R361). -/
structure DiffuserConfig where
  stages : Nat
  dly : Nat
  fb : F
  modA : F
  modR : F
  seed : Word
  interp : Bool
  modEn : Bool
  deriving DecidableEq, Repr, Inhabited

/-- Fields of `K` written to one delay line and below (R361). -/
structure LineConfig where
  delay : DelayConfig
  flags : BitVec 5
  df : DiffuserConfig
  lsF : F
  lsG : F
  hsF : F
  hsG : F
  dampFc : F
  deriving DecidableEq, Repr, Inhabited

/-- The channel configuration record `K` (R361). -/
structure ChannelConfig where
  inMix : F
  dry : F
  early : F
  lineOut : F
  flags : BitVec 4
  lines : Nat
  decayT : F
  xseed : F
  hpFc : F
  lpFc : F
  pre : DelayConfig
  mt : MultitapConfig
  ed : DiffuserConfig
  line : Vector LineConfig 12
  deriving DecidableEq, Repr, Inhabited

/-- What an instantiation of `DERIVE` may depend on by R362 (c), (d), (f): nine of the ten parameters (not mix),
`inputMix`, and the side only through its cross seed. -/
structure DeriveArgs where
  predelay : F
  size : F
  decay : F
  diffusion : F
  lowCut : F
  highCut : F
  crossSeed : F
  modRate : F
  modAmount : F
  inputMix : F
  xseed : F
  deriving DecidableEq, Repr, Inhabited

/-! ## The open parameters (92_eei_decisions.md section 4) -/

/-- The record of the open parameters. The machine assumes of each function only that its result depends on its
arguments (00_scope.md R13); the raw epsilons and the raw `derive` are brought into the ranges the spec requires where
they are used (Machine/OnePoleUnit.lean, Machine/EngineUnit.lean). -/
structure Params where
  /-- `LCG_A` (40_rng.md R131). -/
  lcgA : BitVec 64
  /-- `LCG_C` (R131). -/
  lcgC : BitVec 64
  /-- `OPF_EPS_LP` (41_onepole.md R158). -/
  epsLp : F
  /-- `OPF_EPS_HP` (R159). -/
  epsHp : F
  fsin : F → F
  fcos : F → F
  fexp : F → F
  fpow10 : F → F
  fpow2 : F → F
  /-- `shelf_coeffs` (42_shelf.md R173). -/
  shelfCoeffs : ShelfKind → F → F → ShelfCoeffs
  /-- `DERIVE` (49_engine.md R361), before the constraints of R362. -/
  derive : DeriveArgs → ChannelConfig
  deriving Inhabited

/-- The parameters of the chip the machine models: a free value, nothing is known of it (log entry 3). -/
opaque chip : Params

/-! ## Values binary32 arithmetic leaves open -/

/-- The arithmetic operations of 00_scope.md R11, R12 that can produce a NaN. -/
inductive FloatOp
  | add
  | sub
  | mul
  | div
  | sqrt
  deriving DecidableEq, Repr

/-- The bits of a NaN that an operation produces from its operands: free (log entry 6). -/
opaque nanBits : FloatOp → F → F → BitVec 32

/-- `ftoi_floor` of a value that is not finite, which R12 does not define: free (log entry 7). -/
opaque floorNonFinite : F → Int

end Sys2Proof.Config
end

