-- ==== Sys2Proof/Syntax.lean ====
section
/-! DEFINITION. The syntax of CSCORE: the two ports, the unit instances and their classes (spec/10_state.md R24,
spec/30_encoding.md R103, R104), and one constructor of `Instr` for each command of spec/opcode_table.json (R106). -/

namespace Sys2Proof

/-- The two command ports (10_state.md R20): `A` of the audio agent, `C` of the control agent. -/
inductive Port
  | A
  | C
  deriving DecidableEq, Repr, Inhabited

/-- The two channels (10_state.md R24). -/
inductive Side
  | L
  | R
  deriving DecidableEq, Repr, Inhabited

/-- The LP1 instances: `s.LP` and `s.LINE<j>.DAMP` (R24, R104). -/
inductive Lp1Ref
  | chan (sd : Side)
  | damp (sd : Side) (j : Fin 12)
  deriving DecidableEq, Repr

/-- The SHELF instances: `s.LINE<j>.LS` (kind low) and `s.LINE<j>.HS` (kind high) (R24, R104). -/
structure ShelfRef where
  sd : Side
  j : Fin 12
  kind : Config.ShelfKind
  deriving DecidableEq, Repr

/-- The DIFF instances: `s.ED` and `s.LINE<j>.DF` (R24, R104). -/
inductive DiffRef
  | early (sd : Side)
  | line (sd : Side) (j : Fin 12)
  deriving DecidableEq, Repr

/-- The MAP instances: stage `k` of a diffuser (R24, R104). -/
structure MapRef where
  diff : DiffRef
  k : Fin 12
  deriving DecidableEq, Repr

/-- The MDLY instances: `s.PRE` and `s.LINE<j>.DLY` (R24, R104). -/
inductive MdlyRef
  | pre (sd : Side)
  | line (sd : Side) (j : Fin 12)
  deriving DecidableEq, Repr

/-- The unit instances, one constructor for each class (R24, R104). -/
inductive UnitRef
  | sys
  | eng
  | rng
  | rbuf
  | fn
  | io (bank : Fin 4)
  | chan (sd : Side)
  | hp1 (sd : Side)
  | lp1 (r : Lp1Ref)
  | shelf (r : ShelfRef)
  | map (r : MapRef)
  | diff (r : DiffRef)
  | mdly (r : MdlyRef)
  | mtap (sd : Side)
  | dline (sd : Side) (j : Fin 12)
  deriving DecidableEq, Repr

/-- The commands (30_encoding.md R106), with the fields their format uses (R101) as they stand in the word: the unit,
`sub` and `imm` fields are checked by the command's own rule after the port (R110), so any value can be issued. -/
inductive Instr
  /-- `NOP`, opcode 0x00, format N (49_engine.md R380). -/
  | nop
  /-- `RESET`, opcode 0x01, format N (49_engine.md R381). -/
  | reset
  /-- `RDREG`, opcode 0x02, format US, sub register no. (49_engine.md R385). -/
  | rdreg (u : UnitAddr) (sub : SubField)
  /-- `RDMEM`, opcode 0x03, format USI, imm U index, sub memory no. (49_engine.md R386). -/
  | rdmem (u : UnitAddr) (sub : SubField) (imm : Word)
  /-- `CLRF`, opcode 0x04, format N (49_engine.md R382). -/
  | clrf
  /-- `IO.WR`, opcode 0x05, format USI, imm F value, sub index (49_engine.md R383). -/
  | ioWr (u : UnitAddr) (sub : SubField) (imm : Word)
  /-- `IO.RD`, opcode 0x06, format US, sub index (49_engine.md R384). -/
  | ioRd (u : UnitAddr) (sub : SubField)
  /-- `RNG.SEED`, opcode 0x10, format UI, imm U seed (40_rng.md R136). -/
  | rngSeed (u : UnitAddr) (imm : Word)
  /-- `RNG.NEXT`, opcode 0x11, format U (40_rng.md R137). -/
  | rngNext (u : UnitAddr)
  /-- `RB.SETSEED`, opcode 0x12, format UI, imm U seed (40_rng.md R138). -/
  | rbSetSeed (u : UnitAddr) (imm : Word)
  /-- `RB.SETX`, opcode 0x13, format UI, imm F crossSeed (40_rng.md R139). -/
  | rbSetX (u : UnitAddr) (imm : Word)
  /-- `RB.GEN`, opcode 0x14, format UI, imm U count (40_rng.md R140). -/
  | rbGen (u : UnitAddr) (imm : Word)
  /-- `RB.GENX`, opcode 0x15, format UI, imm U count (40_rng.md R141). -/
  | rbGenX (u : UnitAddr) (imm : Word)
  /-- `LP.SETFC`, opcode 0x20, format UI, imm F cutoff Hz (41_onepole.md R152). -/
  | lpSetFc (u : UnitAddr) (imm : Word)
  /-- `LP.STEP`, opcode 0x21, format UI, imm F sample (41_onepole.md R153). -/
  | lpStep (u : UnitAddr) (imm : Word)
  /-- `LP.CLR`, opcode 0x22, format U (41_onepole.md R154). -/
  | lpClr (u : UnitAddr)
  /-- `HP.SETFC`, opcode 0x24, format UI, imm F cutoff Hz (41_onepole.md R155). -/
  | hpSetFc (u : UnitAddr) (imm : Word)
  /-- `HP.STEP`, opcode 0x25, format UI, imm F sample (41_onepole.md R156). -/
  | hpStep (u : UnitAddr) (imm : Word)
  /-- `HP.CLR`, opcode 0x26, format U (41_onepole.md R157). -/
  | hpClr (u : UnitAddr)
  /-- `SH.SETF`, opcode 0x30, format UI, imm F frequency Hz (42_shelf.md R175). -/
  | shSetF (u : UnitAddr) (imm : Word)
  /-- `SH.SETG`, opcode 0x31, format UI, imm F gain dB (42_shelf.md R176). -/
  | shSetG (u : UnitAddr) (imm : Word)
  /-- `SH.STEP`, opcode 0x32, format UI, imm F sample (42_shelf.md R177). -/
  | shStep (u : UnitAddr) (imm : Word)
  /-- `SH.CLR`, opcode 0x33, format U (42_shelf.md R178). -/
  | shClr (u : UnitAddr)
  /-- `AP.SETDLY`, opcode 0x40, format UI, imm U samples (43_allpass.md R199). -/
  | apSetDly (u : UnitAddr) (imm : Word)
  /-- `AP.SETFB`, opcode 0x41, format UI, imm F feedback (43_allpass.md R200). -/
  | apSetFb (u : UnitAddr) (imm : Word)
  /-- `AP.SETMODA`, opcode 0x42, format UI, imm F samples (43_allpass.md R201). -/
  | apSetModA (u : UnitAddr) (imm : Word)
  /-- `AP.SETMODR`, opcode 0x43, format UI, imm F cycles/sample (43_allpass.md R202). -/
  | apSetModR (u : UnitAddr) (imm : Word)
  /-- `AP.SETINTERP`, opcode 0x44, format UI, imm B (43_allpass.md R203). -/
  | apSetInterp (u : UnitAddr) (imm : Word)
  /-- `AP.SETMODEN`, opcode 0x45, format UI, imm B (43_allpass.md R204). -/
  | apSetModEn (u : UnitAddr) (imm : Word)
  /-- `AP.STEP`, opcode 0x46, format UI, imm F sample (43_allpass.md R205). -/
  | apStep (u : UnitAddr) (imm : Word)
  /-- `AP.CLR`, opcode 0x47, format U (43_allpass.md R206). -/
  | apClr (u : UnitAddr)
  /-- `DF.SETSTAGES`, opcode 0x50, format UI, imm U count (44_diffuser.md R224). -/
  | dfSetStages (u : UnitAddr) (imm : Word)
  /-- `DF.SETDLY`, opcode 0x51, format UI, imm U samples (44_diffuser.md R225). -/
  | dfSetDly (u : UnitAddr) (imm : Word)
  /-- `DF.SETFB`, opcode 0x52, format UI, imm F feedback (44_diffuser.md R226). -/
  | dfSetFb (u : UnitAddr) (imm : Word)
  /-- `DF.SETMODA`, opcode 0x53, format UI, imm F samples (44_diffuser.md R227). -/
  | dfSetModA (u : UnitAddr) (imm : Word)
  /-- `DF.SETMODR`, opcode 0x54, format UI, imm F cycles/sample (44_diffuser.md R228). -/
  | dfSetModR (u : UnitAddr) (imm : Word)
  /-- `DF.SETSEED`, opcode 0x55, format UI, imm U seed (44_diffuser.md R229). -/
  | dfSetSeed (u : UnitAddr) (imm : Word)
  /-- `DF.SETX`, opcode 0x56, format UI, imm F crossSeed (44_diffuser.md R230). -/
  | dfSetX (u : UnitAddr) (imm : Word)
  /-- `DF.SETINTERP`, opcode 0x57, format UI, imm B (44_diffuser.md R231). -/
  | dfSetInterp (u : UnitAddr) (imm : Word)
  /-- `DF.SETMODEN`, opcode 0x58, format UI, imm B (44_diffuser.md R232). -/
  | dfSetModEn (u : UnitAddr) (imm : Word)
  /-- `DF.STEP`, opcode 0x59, format UI, imm F sample (44_diffuser.md R233). -/
  | dfStep (u : UnitAddr) (imm : Word)
  /-- `DF.CLR`, opcode 0x5A, format U (44_diffuser.md R234). -/
  | dfClr (u : UnitAddr)
  /-- `MD.SETDLY`, opcode 0x60, format UI, imm U samples (45_moddelay.md R252). -/
  | mdSetDly (u : UnitAddr) (imm : Word)
  /-- `MD.SETMODA`, opcode 0x61, format UI, imm F samples (45_moddelay.md R253). -/
  | mdSetModA (u : UnitAddr) (imm : Word)
  /-- `MD.SETMODR`, opcode 0x62, format UI, imm F cycles/sample (45_moddelay.md R254). -/
  | mdSetModR (u : UnitAddr) (imm : Word)
  /-- `MD.STEP`, opcode 0x63, format UI, imm F sample (45_moddelay.md R255). -/
  | mdStep (u : UnitAddr) (imm : Word)
  /-- `MD.CLR`, opcode 0x64, format U (45_moddelay.md R256). -/
  | mdClr (u : UnitAddr)
  /-- `MT.SETTAPS`, opcode 0x70, format UI, imm U count (46_multitap.md R274). -/
  | mtSetTaps (u : UnitAddr) (imm : Word)
  /-- `MT.SETLEN`, opcode 0x71, format UI, imm U samples (46_multitap.md R275). -/
  | mtSetLen (u : UnitAddr) (imm : Word)
  /-- `MT.SETDECAY`, opcode 0x72, format UI, imm F decay (46_multitap.md R276). -/
  | mtSetDecay (u : UnitAddr) (imm : Word)
  /-- `MT.SETSEED`, opcode 0x73, format UI, imm U seed (46_multitap.md R277). -/
  | mtSetSeed (u : UnitAddr) (imm : Word)
  /-- `MT.SETX`, opcode 0x74, format UI, imm F crossSeed (46_multitap.md R278). -/
  | mtSetX (u : UnitAddr) (imm : Word)
  /-- `MT.STEP`, opcode 0x75, format UI, imm F sample (46_multitap.md R279). -/
  | mtStep (u : UnitAddr) (imm : Word)
  /-- `MT.CLR`, opcode 0x76, format U (46_multitap.md R280). -/
  | mtClr (u : UnitAddr)
  /-- `DL.SETFB`, opcode 0x80, format UI, imm F feedback (47_delayline.md R294). -/
  | dlSetFb (u : UnitAddr) (imm : Word)
  /-- `DL.SETFLAGS`, opcode 0x81, format UI, imm M5 (47_delayline.md R295). -/
  | dlSetFlags (u : UnitAddr) (imm : Word)
  /-- `DL.PROC`, opcode 0x82, format UI, imm U n (47_delayline.md R297). -/
  | dlProc (u : UnitAddr) (imm : Word)
  /-- `DL.CLR`, opcode 0x83, format U (47_delayline.md R298). -/
  | dlClr (u : UnitAddr)
  /-- `CH.SETINMIX`, opcode 0x90, format UI, imm F (48_channel.md R319). -/
  | chSetInMix (u : UnitAddr) (imm : Word)
  /-- `CH.SETFLAGS`, opcode 0x91, format UI, imm M4 (48_channel.md R320). -/
  | chSetFlags (u : UnitAddr) (imm : Word)
  /-- `CH.SETLINES`, opcode 0x92, format UI, imm U count (48_channel.md R321). -/
  | chSetLines (u : UnitAddr) (imm : Word)
  /-- `CH.SETDECAY`, opcode 0x93, format UI, imm F samples (48_channel.md R322). -/
  | chSetDecay (u : UnitAddr) (imm : Word)
  /-- `CH.SETDRY`, opcode 0x94, format UI, imm F (48_channel.md R323). -/
  | chSetDry (u : UnitAddr) (imm : Word)
  /-- `CH.SETEARLY`, opcode 0x95, format UI, imm F (48_channel.md R324). -/
  | chSetEarly (u : UnitAddr) (imm : Word)
  /-- `CH.SETLINEOUT`, opcode 0x96, format UI, imm F (48_channel.md R325). -/
  | chSetLineOut (u : UnitAddr) (imm : Word)
  /-- `CH.SETX`, opcode 0x97, format UI, imm F crossSeed (48_channel.md R326). -/
  | chSetX (u : UnitAddr) (imm : Word)
  /-- `CH.PROC`, opcode 0x98, format UI, imm U n (48_channel.md R327). -/
  | chProc (u : UnitAddr) (imm : Word)
  /-- `CH.CLR`, opcode 0x99, format U (48_channel.md R328). -/
  | chClr (u : UnitAddr)
  /-- `EN.SETP`, opcode 0xA0, format USI, imm F value, sub key (49_engine.md R351). -/
  | enSetP (u : UnitAddr) (sub : SubField) (imm : Word)
  /-- `EN.GETP`, opcode 0xA1, format US, sub key (49_engine.md R352). -/
  | enGetP (u : UnitAddr) (sub : SubField)
  /-- `EN.PROC`, opcode 0xA2, format UI, imm U n (49_engine.md R355). -/
  | enProc (u : UnitAddr) (imm : Word)
  /-- `EN.CLR`, opcode 0xA3, format U (49_engine.md R359). -/
  | enClr (u : UnitAddr)
  /-- `EN.SYNC`, opcode 0xA4, format U (49_engine.md R354). -/
  | enSync (u : UnitAddr)
  /-- `FN.R2D`, opcode 0xB0, format UI, imm F x (49_engine.md R344). -/
  | fnR2d (u : UnitAddr) (imm : Word)
  /-- `FN.R3D`, opcode 0xB1, format UI, imm F x (49_engine.md R345). -/
  | fnR3d (u : UnitAddr) (imm : Word)
  /-- `FN.R4O`, opcode 0xB2, format UI, imm F x (49_engine.md R346). -/
  | fnR4o (u : UnitAddr) (imm : Word)
  /-- `FN.DB2LIN`, opcode 0xB3, format UI, imm F dB (49_engine.md R347). -/
  | fnDb2Lin (u : UnitAddr) (imm : Word)
  deriving DecidableEq, Repr

end Sys2Proof
end

