-- ==== Sys2Proof/Decode.lean ====
section
/-! DEFINITION. The encoding of CSCORE (spec/30_encoding.md): the fields of a command word (R100), the unit addresses
(R103, R104), the decoder (R106 to R109), total on every word and rejecting by name, and the encoder. -/

namespace Sys2Proof

/-! ## The fields of a command word (R100) -/

/-- `w[63:56]`. -/
def opcodeField (w : Command) : BitVec 8 := w.extractLsb' 56 8

/-- `w[55:40]`. -/
def unitField (w : Command) : UnitAddr := w.extractLsb' 40 16

/-- `w[39:32]`. -/
def subField (w : Command) : SubField := w.extractLsb' 32 8

/-- `w[31:0]`. -/
def immField (w : Command) : Word := w.extractLsb' 0 32

/-- The word with the given fields (R100). -/
def packCommand (op : BitVec 8) (u : UnitAddr) (sub : SubField) (imm : Word) : Command :=
  op ++ u ++ sub ++ imm

/-! ## Unit addresses (R103, R104) -/

/-- The number of a side in bits 15:14 of the address (R103). -/
def sideCode : Side → Nat
  | .L => 1
  | .R => 2

/-- The address with the given fields (R103). -/
def packUnit (side isline line blk isstage idx : Nat) : UnitAddr :=
  BitVec.ofNat 16 (side * 2 ^ 14 + isline * 2 ^ 13 + line * 2 ^ 9 + blk * 2 ^ 5 + isstage * 2 ^ 4 + idx)

/-- The address of a diffuser, or of its stage (R104). -/
def diffAddr (r : DiffRef) (isstage idx : Nat) : UnitAddr :=
  match r with
  | .early sd => packUnit (sideCode sd) 0 0 5 isstage idx
  | .line sd j => packUnit (sideCode sd) 1 j.val 2 isstage idx

/-- The address of a unit instance (R104). -/
def unitAddr : UnitRef → UnitAddr
  | .sys => packUnit 0 0 0 0 0 0
  | .eng => packUnit 0 0 0 1 0 0
  | .rng => packUnit 0 0 0 2 0 0
  | .rbuf => packUnit 0 0 0 3 0 0
  | .fn => packUnit 0 0 0 4 0 0
  | .io b => packUnit 0 0 0 5 0 b.val
  | .chan sd => packUnit (sideCode sd) 0 0 0 0 0
  | .hp1 sd => packUnit (sideCode sd) 0 0 1 0 0
  | .lp1 (.chan sd) => packUnit (sideCode sd) 0 0 2 0 0
  | .lp1 (.damp sd j) => packUnit (sideCode sd) 1 j.val 5 0 0
  | .shelf r => packUnit (sideCode r.sd) 1 r.j.val (match r.kind with | .low => 3 | .high => 4) 0 0
  | .map r => diffAddr r.diff 1 r.k.val
  | .diff r => diffAddr r 0 0
  | .mdly (.pre sd) => packUnit (sideCode sd) 0 0 3 0 0
  | .mdly (.line sd j) => packUnit (sideCode sd) 1 j.val 1 0 0
  | .mtap sd => packUnit (sideCode sd) 0 0 4 0 0
  | .dline sd j => packUnit (sideCode sd) 1 j.val 0 0 0

/-- Global units, `side` = 0 (R104): no line, no stage; an index only for the banks of `IO`. -/
def globalUnitOf (blk idx : Nat) : Option UnitRef :=
  match blk with
  | 0 => if idx = 0 then some .sys else none
  | 1 => if idx = 0 then some .eng else none
  | 2 => if idx = 0 then some .rng else none
  | 3 => if idx = 0 then some .rbuf else none
  | 4 => if idx = 0 then some .fn else none
  | 5 => if h : idx < 4 then some (.io ⟨idx, h⟩) else none
  | _ => none

/-- A stage of a diffuser: `idx` at most 11 (R104). -/
def stageUnitOf (r : DiffRef) (idx : Nat) : Option UnitRef :=
  if h : idx < 12 then some (.map ⟨r, ⟨idx, h⟩⟩) else none

/-- Units of a channel outside its lines, `isline` = 0 (R104). -/
def chanUnitOf (sd : Side) (blk isstage idx : Nat) : Option UnitRef :=
  if isstage = 1 then
    if blk = 5 then stageUnitOf (.early sd) idx else none
  else if idx ≠ 0 then none
  else match blk with
    | 0 => some (.chan sd)
    | 1 => some (.hp1 sd)
    | 2 => some (.lp1 (.chan sd))
    | 3 => some (.mdly (.pre sd))
    | 4 => some (.mtap sd)
    | 5 => some (.diff (.early sd))
    | _ => none

/-- Units inside a delay line, `isline` = 1 (R104). -/
def lineUnitOf (sd : Side) (j : Fin 12) (blk isstage idx : Nat) : Option UnitRef :=
  if isstage = 1 then
    if blk = 2 then stageUnitOf (.line sd j) idx else none
  else if idx ≠ 0 then none
  else match blk with
    | 0 => some (.dline sd j)
    | 1 => some (.mdly (.line sd j))
    | 2 => some (.diff (.line sd j))
    | 3 => some (.shelf ⟨sd, j, .low⟩)
    | 4 => some (.shelf ⟨sd, j, .high⟩)
    | 5 => some (.lp1 (.damp sd j))
    | _ => none

/-- Units of one side (R104): a line index at most 11, and 0 outside a line. -/
def sideUnitOf (sd : Side) (isline line blk isstage idx : Nat) : Option UnitRef :=
  if isline = 1 then
    if h : line < 12 then lineUnitOf sd ⟨line, h⟩ blk isstage idx else none
  else if line ≠ 0 then none
  else chanUnitOf sd blk isstage idx

/-- The unit instance an address names, none where it names no unit (R103, R104). -/
def unitOf (u : UnitAddr) : Option UnitRef :=
  let side := (u.extractLsb' 14 2).toNat
  let isline := (u.extractLsb' 13 1).toNat
  let line := (u.extractLsb' 9 4).toNat
  let blk := (u.extractLsb' 5 4).toNat
  let isstage := (u.extractLsb' 4 1).toNat
  let idx := (u.extractLsb' 0 4).toNat
  match side with
  | 0 => if isline = 0 ∧ line = 0 ∧ isstage = 0 then globalUnitOf blk idx else none
  | 1 => sideUnitOf .L isline line blk isstage idx
  | 2 => sideUnitOf .R isline line blk isstage idx
  | _ => none

/-! ## The decoder (R106 to R110) -/

/-- Why a word is no command: both are `Fault(ILLOP)` (R107, R108, R110 (1) and (2)). -/
inductive DecodeError
  /-- The opcode is not in the list of R106. -/
  | unknownOpcode (op : BitVec 8)
  /-- A field the command's format does not use is not zero. -/
  | unusedField (op : BitVec 8)
  deriving DecidableEq, Repr

/-- The instruction, or the rejection by name. -/
abbrev Decoded := Except DecodeError Instr

/-- `i` if the unused fields of the word are zero (R107). -/
def ifZero (unused : Bool) (op : BitVec 8) (i : Instr) : Decoded :=
  if unused then .ok i else .error (.unusedField op)

/-- The decoder: opcode first, then the unused fields (R107 to R110). -/
def decode (w : Command) : Decoded :=
  let op := opcodeField w
  let u := unitField w
  let sub := subField w
  let imm := immField w
  let fN := u == 0 && sub == 0 && imm == 0
  let fU := sub == 0 && imm == 0
  let fUI := sub == 0
  let fUS := imm == 0
  match op.toNat with
  | 0x00 => ifZero fN op .nop
  | 0x01 => ifZero fN op .reset
  | 0x02 => ifZero fUS op (.rdreg u sub)
  | 0x03 => .ok (.rdmem u sub imm)
  | 0x04 => ifZero fN op .clrf
  | 0x05 => .ok (.ioWr u sub imm)
  | 0x06 => ifZero fUS op (.ioRd u sub)
  | 0x10 => ifZero fUI op (.rngSeed u imm)
  | 0x11 => ifZero fU op (.rngNext u)
  | 0x12 => ifZero fUI op (.rbSetSeed u imm)
  | 0x13 => ifZero fUI op (.rbSetX u imm)
  | 0x14 => ifZero fUI op (.rbGen u imm)
  | 0x15 => ifZero fUI op (.rbGenX u imm)
  | 0x20 => ifZero fUI op (.lpSetFc u imm)
  | 0x21 => ifZero fUI op (.lpStep u imm)
  | 0x22 => ifZero fU op (.lpClr u)
  | 0x24 => ifZero fUI op (.hpSetFc u imm)
  | 0x25 => ifZero fUI op (.hpStep u imm)
  | 0x26 => ifZero fU op (.hpClr u)
  | 0x30 => ifZero fUI op (.shSetF u imm)
  | 0x31 => ifZero fUI op (.shSetG u imm)
  | 0x32 => ifZero fUI op (.shStep u imm)
  | 0x33 => ifZero fU op (.shClr u)
  | 0x40 => ifZero fUI op (.apSetDly u imm)
  | 0x41 => ifZero fUI op (.apSetFb u imm)
  | 0x42 => ifZero fUI op (.apSetModA u imm)
  | 0x43 => ifZero fUI op (.apSetModR u imm)
  | 0x44 => ifZero fUI op (.apSetInterp u imm)
  | 0x45 => ifZero fUI op (.apSetModEn u imm)
  | 0x46 => ifZero fUI op (.apStep u imm)
  | 0x47 => ifZero fU op (.apClr u)
  | 0x50 => ifZero fUI op (.dfSetStages u imm)
  | 0x51 => ifZero fUI op (.dfSetDly u imm)
  | 0x52 => ifZero fUI op (.dfSetFb u imm)
  | 0x53 => ifZero fUI op (.dfSetModA u imm)
  | 0x54 => ifZero fUI op (.dfSetModR u imm)
  | 0x55 => ifZero fUI op (.dfSetSeed u imm)
  | 0x56 => ifZero fUI op (.dfSetX u imm)
  | 0x57 => ifZero fUI op (.dfSetInterp u imm)
  | 0x58 => ifZero fUI op (.dfSetModEn u imm)
  | 0x59 => ifZero fUI op (.dfStep u imm)
  | 0x5A => ifZero fU op (.dfClr u)
  | 0x60 => ifZero fUI op (.mdSetDly u imm)
  | 0x61 => ifZero fUI op (.mdSetModA u imm)
  | 0x62 => ifZero fUI op (.mdSetModR u imm)
  | 0x63 => ifZero fUI op (.mdStep u imm)
  | 0x64 => ifZero fU op (.mdClr u)
  | 0x70 => ifZero fUI op (.mtSetTaps u imm)
  | 0x71 => ifZero fUI op (.mtSetLen u imm)
  | 0x72 => ifZero fUI op (.mtSetDecay u imm)
  | 0x73 => ifZero fUI op (.mtSetSeed u imm)
  | 0x74 => ifZero fUI op (.mtSetX u imm)
  | 0x75 => ifZero fUI op (.mtStep u imm)
  | 0x76 => ifZero fU op (.mtClr u)
  | 0x80 => ifZero fUI op (.dlSetFb u imm)
  | 0x81 => ifZero fUI op (.dlSetFlags u imm)
  | 0x82 => ifZero fUI op (.dlProc u imm)
  | 0x83 => ifZero fU op (.dlClr u)
  | 0x90 => ifZero fUI op (.chSetInMix u imm)
  | 0x91 => ifZero fUI op (.chSetFlags u imm)
  | 0x92 => ifZero fUI op (.chSetLines u imm)
  | 0x93 => ifZero fUI op (.chSetDecay u imm)
  | 0x94 => ifZero fUI op (.chSetDry u imm)
  | 0x95 => ifZero fUI op (.chSetEarly u imm)
  | 0x96 => ifZero fUI op (.chSetLineOut u imm)
  | 0x97 => ifZero fUI op (.chSetX u imm)
  | 0x98 => ifZero fUI op (.chProc u imm)
  | 0x99 => ifZero fU op (.chClr u)
  | 0xA0 => .ok (.enSetP u sub imm)
  | 0xA1 => ifZero fUS op (.enGetP u sub)
  | 0xA2 => ifZero fUI op (.enProc u imm)
  | 0xA3 => ifZero fU op (.enClr u)
  | 0xA4 => ifZero fU op (.enSync u)
  | 0xB0 => ifZero fUI op (.fnR2d u imm)
  | 0xB1 => ifZero fUI op (.fnR3d u imm)
  | 0xB2 => ifZero fUI op (.fnR4o u imm)
  | 0xB3 => ifZero fUI op (.fnDb2Lin u imm)
  | _ => .error (.unknownOpcode op)

/-! ## The encoder (R100, R101, R106) -/

/-- The word of a command: its opcode and fields, zero in every field its format does not use. -/
def encode : Instr → Command
  | .nop => packCommand 0x00 0 0 0
  | .reset => packCommand 0x01 0 0 0
  | .rdreg u sub => packCommand 0x02 u sub 0
  | .rdmem u sub imm => packCommand 0x03 u sub imm
  | .clrf => packCommand 0x04 0 0 0
  | .ioWr u sub imm => packCommand 0x05 u sub imm
  | .ioRd u sub => packCommand 0x06 u sub 0
  | .rngSeed u imm => packCommand 0x10 u 0 imm
  | .rngNext u => packCommand 0x11 u 0 0
  | .rbSetSeed u imm => packCommand 0x12 u 0 imm
  | .rbSetX u imm => packCommand 0x13 u 0 imm
  | .rbGen u imm => packCommand 0x14 u 0 imm
  | .rbGenX u imm => packCommand 0x15 u 0 imm
  | .lpSetFc u imm => packCommand 0x20 u 0 imm
  | .lpStep u imm => packCommand 0x21 u 0 imm
  | .lpClr u => packCommand 0x22 u 0 0
  | .hpSetFc u imm => packCommand 0x24 u 0 imm
  | .hpStep u imm => packCommand 0x25 u 0 imm
  | .hpClr u => packCommand 0x26 u 0 0
  | .shSetF u imm => packCommand 0x30 u 0 imm
  | .shSetG u imm => packCommand 0x31 u 0 imm
  | .shStep u imm => packCommand 0x32 u 0 imm
  | .shClr u => packCommand 0x33 u 0 0
  | .apSetDly u imm => packCommand 0x40 u 0 imm
  | .apSetFb u imm => packCommand 0x41 u 0 imm
  | .apSetModA u imm => packCommand 0x42 u 0 imm
  | .apSetModR u imm => packCommand 0x43 u 0 imm
  | .apSetInterp u imm => packCommand 0x44 u 0 imm
  | .apSetModEn u imm => packCommand 0x45 u 0 imm
  | .apStep u imm => packCommand 0x46 u 0 imm
  | .apClr u => packCommand 0x47 u 0 0
  | .dfSetStages u imm => packCommand 0x50 u 0 imm
  | .dfSetDly u imm => packCommand 0x51 u 0 imm
  | .dfSetFb u imm => packCommand 0x52 u 0 imm
  | .dfSetModA u imm => packCommand 0x53 u 0 imm
  | .dfSetModR u imm => packCommand 0x54 u 0 imm
  | .dfSetSeed u imm => packCommand 0x55 u 0 imm
  | .dfSetX u imm => packCommand 0x56 u 0 imm
  | .dfSetInterp u imm => packCommand 0x57 u 0 imm
  | .dfSetModEn u imm => packCommand 0x58 u 0 imm
  | .dfStep u imm => packCommand 0x59 u 0 imm
  | .dfClr u => packCommand 0x5A u 0 0
  | .mdSetDly u imm => packCommand 0x60 u 0 imm
  | .mdSetModA u imm => packCommand 0x61 u 0 imm
  | .mdSetModR u imm => packCommand 0x62 u 0 imm
  | .mdStep u imm => packCommand 0x63 u 0 imm
  | .mdClr u => packCommand 0x64 u 0 0
  | .mtSetTaps u imm => packCommand 0x70 u 0 imm
  | .mtSetLen u imm => packCommand 0x71 u 0 imm
  | .mtSetDecay u imm => packCommand 0x72 u 0 imm
  | .mtSetSeed u imm => packCommand 0x73 u 0 imm
  | .mtSetX u imm => packCommand 0x74 u 0 imm
  | .mtStep u imm => packCommand 0x75 u 0 imm
  | .mtClr u => packCommand 0x76 u 0 0
  | .dlSetFb u imm => packCommand 0x80 u 0 imm
  | .dlSetFlags u imm => packCommand 0x81 u 0 imm
  | .dlProc u imm => packCommand 0x82 u 0 imm
  | .dlClr u => packCommand 0x83 u 0 0
  | .chSetInMix u imm => packCommand 0x90 u 0 imm
  | .chSetFlags u imm => packCommand 0x91 u 0 imm
  | .chSetLines u imm => packCommand 0x92 u 0 imm
  | .chSetDecay u imm => packCommand 0x93 u 0 imm
  | .chSetDry u imm => packCommand 0x94 u 0 imm
  | .chSetEarly u imm => packCommand 0x95 u 0 imm
  | .chSetLineOut u imm => packCommand 0x96 u 0 imm
  | .chSetX u imm => packCommand 0x97 u 0 imm
  | .chProc u imm => packCommand 0x98 u 0 imm
  | .chClr u => packCommand 0x99 u 0 0
  | .enSetP u sub imm => packCommand 0xA0 u sub imm
  | .enGetP u sub => packCommand 0xA1 u sub 0
  | .enProc u imm => packCommand 0xA2 u 0 imm
  | .enClr u => packCommand 0xA3 u 0 0
  | .enSync u => packCommand 0xA4 u 0 0
  | .fnR2d u imm => packCommand 0xB0 u 0 imm
  | .fnR3d u imm => packCommand 0xB1 u 0 imm
  | .fnR4o u imm => packCommand 0xB2 u 0 imm
  | .fnDb2Lin u imm => packCommand 0xB3 u 0 imm

/-! ## The host's view of the decoder -/

/-- The word of an instruction whose bits are `w`, of which the table gives `nbits`; every bit above them is 0. A command
is one word, bit 0 its least significant bit (R15, R100). -/
def tableWord (nbits w : Nat) : Command := BitVec.ofNat 64 (w % 2 ^ nbits)

/-- The instruction the decoder reads from an instruction whose bits are `w`, none where it refuses. -/
def decodeTableWord (nbits w : Nat) : Option Instr :=
  match decode (tableWord nbits w) with
  | .ok i => some i
  | .error _ => none

end Sys2Proof
end

