-- ==== Sys2Proof/Machine/Float.lean ====
section
/-! DEFINITION. Binary32 arithmetic on bit patterns (spec/00_scope.md R10 to R12; the content of IEEE 754 is general
knowledge, log entry 8). A finite magnitude is a natural number of units of 2^-149, the smallest subnormal, so every
operation is exact integer arithmetic followed by ONE rounding to nearest, ties to even. -/

namespace Sys2Proof.Machine

/-! ## Patterns -/

/-- The pattern without its sign bit. -/
def magBits (x : F) : Nat := x.toNat % 2 ^ 31

/-- The sign bit. -/
def signBit (x : F) : Bool := x.msb

/-- The value with sign bit `neg` and magnitude pattern `m` below 2^31. -/
def withSign (neg : Bool) (m : Nat) : F := BitVec.ofNat 32 ((if neg then 2 ^ 31 else 0) + m)

/-- The magnitude pattern of infinity. -/
def infBits : Nat := 0x7F800000

/-- `+0`. -/
def fzero : F := 0x00000000#32
/-- `1`. -/
def fone : F := 0x3F800000#32
/-- `-1`. -/
def fnegOne : F := 0xBF800000#32
/-- `2`. -/
def ftwo : F := 0x40000000#32
/-- `0.5`. -/
def fhalf : F := 0x3F000000#32

/-- A NaN: exponent all ones, fraction not zero. -/
def isNaN (x : F) : Bool := decide (infBits < magBits x)

/-- Neither a NaN nor an infinity. -/
def isFinite (x : F) : Bool := decide (magBits x < infBits)

/-- An infinity of either sign. -/
def isInf (x : F) : Bool := magBits x == infBits

/-- Either zero: "exactly zero" means `v == 0` (R11). -/
def isZero (x : F) : Bool := magBits x == 0

/-! ## Magnitudes as numbers of units of 2^-149 -/

/-- The magnitude of a finite value, in units of 2^-149. -/
def magUnits (x : F) : Nat :=
  let e := magBits x / 2 ^ 23
  let f := magBits x % 2 ^ 23
  if e = 0 then f else (2 ^ 23 + f) * 2 ^ (e - 1)

/-- A finite value as an integer number of units of 2^-149. -/
def toUnits (x : F) : Int := if signBit x then -(magUnits x : Int) else (magUnits x : Int)

/-- The magnitude pattern nearest `num / den` units of 2^-149, ties to even, infinity from the overflow threshold up:
the one rounding of every operation (R11). -/
def roundMag (num den : Nat) : Nat :=
  let k := (num / den).log2 - 23
  let u := den * 2 ^ k
  let r := num / u
  let rem := num % u
  let up := decide (u < 2 * rem) || (2 * rem == u && r % 2 == 1)
  min (k * 2 ^ 23 + (if up then r + 1 else r)) infBits

/-- A signed number of units rounded to binary32; an exact zero gets the sign `zneg`. -/
def roundUnits (zneg : Bool) (n : Int) : F :=
  if n = 0 then withSign zneg 0 else withSign (decide (n < 0)) (roundMag n.natAbs 1)

/-- The NaN an operation produces: some NaN, its sign and fraction free (log entry 6). -/
def nanResult (op : Config.FloatOp) (x y : F) : F :=
  let b := Config.nanBits op x y ||| 0x7F800000#32
  if b &&& 0x007FFFFF#32 = 0 then b ||| 0x00400000#32 else b

/-! ## Arithmetic (R11) -/

/-- Negation: the sign bit alone. -/
def fneg (x : F) : F := x ^^^ 0x80000000#32

/-- `fabs` clears the sign bit (R12). -/
def fabs (x : F) : F := x &&& 0x7FFFFFFF#32

/-- The sum of two values that are no NaN; `op` and the operands as written name a NaN result. -/
def addCore (op : Config.FloatOp) (x y y' : F) : F :=
  if isInf x then (if isInf y' && signBit x != signBit y' then nanResult op x y else x)
  else if isInf y' then y'
  else roundUnits (signBit x && signBit y') (toUnits x + toUnits y')

/-- `x + y`. -/
def fadd (x y : F) : F :=
  if isNaN x || isNaN y then nanResult .add x y else addCore .add x y y

/-- `x - y`. -/
def fsub (x y : F) : F :=
  if isNaN x || isNaN y then nanResult .sub x y else addCore .sub x y (fneg y)

/-- `x * y`. -/
def fmul (x y : F) : F :=
  let neg := signBit x != signBit y
  if isNaN x || isNaN y then nanResult .mul x y
  else if isInf x || isInf y then
    (if isZero x || isZero y then nanResult .mul x y else withSign neg infBits)
  else withSign neg (roundMag (magUnits x * magUnits y) (2 ^ 149))

/-- `x / y`: division of a finite value by zero gives an infinity, of zero by zero a NaN (R420). -/
def fdiv (x y : F) : F :=
  let neg := signBit x != signBit y
  if isNaN x || isNaN y then nanResult .div x y
  else if isInf x then (if isInf y then nanResult .div x y else withSign neg infBits)
  else if isInf y then withSign neg 0
  else if isZero y then (if isZero x then nanResult .div x y else withSign neg infBits)
  else withSign neg (roundMag (magUnits x * 2 ^ 149) (magUnits y))

/-- The integer square root of `n`, `b` bits wide, by adding bits from the top to `r`. -/
def isqrtBits : Nat → Nat → Nat → Nat
  | 0, _, r => r
  | b + 1, n, r => if (r + 2 ^ b) * (r + 2 ^ b) ≤ n then isqrtBits b n (r + 2 ^ b) else isqrtBits b n r

/-- The integer square root of a number below 2^448. -/
def isqrt (n : Nat) : Nat := isqrtBits 224 n 0

/-- The magnitude pattern nearest the square root of `n` square units. -/
def roundSqrt (n : Nat) : Nat :=
  let k := (isqrt n).log2 - 23
  let r := isqrt n / 2 ^ k
  let mid := (2 * r + 1) * 2 ^ k
  let up := decide (mid * mid < 4 * n) || (mid * mid == 4 * n && r % 2 == 1)
  min (k * 2 ^ 23 + (if up then r + 1 else r)) infBits

/-- `fsqrt`, correctly rounded (R12): a zero keeps its sign, any other negative value gives a NaN. -/
def fsqrt (x : F) : F :=
  if isNaN x then nanResult .sqrt x x
  else if isZero x then x
  else if signBit x then nanResult .sqrt x x
  else if isInf x then x
  else withSign false (roundSqrt (magUnits x * 2 ^ 149))

/-! ## Comparisons (R11): false with a NaN, and `-0 == +0` -/

/-- The order of the values that are no NaN, both zeros at 0. -/
def orderKey (x : F) : Int := if signBit x then -(magBits x : Int) else (magBits x : Int)

/-- `x < y`. -/
def flt (x y : F) : Bool := !isNaN x && !isNaN y && decide (orderKey x < orderKey y)

/-- `x <= y`. -/
def fle (x y : F) : Bool := !isNaN x && !isNaN y && decide (orderKey x ≤ orderKey y)

/-- `x == y`. -/
def feq (x y : F) : Bool := !isNaN x && !isNaN y && decide (orderKey x = orderKey y)

/-! ## Conversions (R12) -/

/-- `itof(n)`: the binary32 nearest the integer `n`. -/
def itof (n : Int) : F := roundUnits false (n * 2 ^ 149)

/-- `ftoi_floor(v)`: the greatest integer not above `v`; free where `v` is not finite (log entry 7). -/
def ftoiFloor (x : F) : Int := if isFinite x then toUnits x / 2 ^ 149 else Config.floorNonFinite x

/-- `ffloor(v) = itof(ftoi_floor(v))`. -/
def ffloor (x : F) : F := itof (ftoiFloor x)

/-- The binary32 nearest the ratio `num / den`: what a decimal literal in pseudocode stands for (R12). -/
def ratio (num den : Nat) : F := withSign false (roundMag (num * 2 ^ 149) den)

/-! ## Ranges that the rules test -/

/-- `lo <= v and v <= hi`. -/
def inRange (lo hi v : F) : Bool := fle lo v && fle v hi

/-- `0 <= v and v <= 1`. -/
def inUnit (v : F) : Bool := inRange fzero fone v

/-- `clamp01` (49_engine.md R350). -/
def clamp01 (v : F) : F := if !flt fzero v then fzero else if flt fone v then fone else v

/-- `sat1` (43_allpass.md R193). -/
def sat1 (m : F) : F :=
  if fle fnegOne m && fle m fone then m
  else if flt fone m then fone
  else if flt m fnegOne then fnegOne
  else fzero

end Sys2Proof.Machine
end

