-- ==== Sys2Proof/Machine/Operands.lean ====
section
/-! DEFINITION. The operand checks of the commands (spec/30_encoding.md R102; spec/60_exceptions.md R406 to R408): for
each kind of operand, whether it lies in the legal range its rule states. A failing check raises the fault the rule
names; nothing is clamped here. -/

namespace Sys2Proof.Machine

/-- A type `B` operand: 0 or 1 (R102). -/
def boolOk (imm : Word) : Bool := decide (imm.toNat ≤ 1)

/-- The value of a type `B` operand: `imm[0]`. -/
def boolOf (imm : Word) : Bool := imm.getLsbD 0

/-- A type `M<n>` operand: no bit above bit `n - 1` (R102). -/
def maskOk (n : Nat) (imm : Word) : Bool := decide (imm.toNat < 2 ^ n)

/-- A base delay: 1 to `CAP - 2` (43_allpass.md R199, 45_moddelay.md R252, 44_diffuser.md R225). -/
def delayOk (cap n : Nat) : Bool := decide (1 ≤ n) && decide (n ≤ cap - 2)

/-- A modulation amount: `0 <= a <= itof(max)` (R201, R253, R227). -/
def modAOk (max : Nat) (a : F) : Bool := inRange fzero (itof max) a

/-- A modulation rate of a MAP or MDLY: `-1 <= r <= 1` (R202, R254). -/
def modROk (r : F) : Bool := inRange fnegOne fone r

/-- A modulation rate of a DIFF: `-0.5 <= r <= 0.5` (R228). -/
def diffModROk (r : F) : Bool := inRange (fneg fhalf) fhalf r

/-- A stage count: at most `MAX_STAGES` (R224). -/
def stagesOk (n : Nat) : Bool := decide (n ≤ Config.maxStages)

/-- A tap count: 1 to `MAX_TAPS` (46_multitap.md R274). -/
def tapsOk (n : Nat) : Bool := decide (1 ≤ n) && decide (n ≤ Config.maxTaps)

/-- A cluster length: 1 to `DL_CAP - 1` (R275). -/
def lenOk (n : Nat) : Bool := decide (1 ≤ n) && decide (n ≤ Config.dlCap - 1)

/-- A line count: 1 to `MAX_LINES` (48_channel.md R321). -/
def linesOk (n : Nat) : Bool := decide (1 ≤ n) && decide (n ≤ Config.maxLines)

/-- A decay time: `t > 0` and not infinite (R322). -/
def decayTOk (t : F) : Bool := flt fzero t && !isInf t

/-- A block length: 1 to `BLOCK` (R297, R327, R355). -/
def blockOk (n : Nat) : Bool := decide (1 ≤ n) && decide (n ≤ Config.block)

/-- A count of random values: at most `RB_CAP` (40_rng.md R140, R141). -/
def countOk (n : Nat) : Bool := decide (n ≤ Config.rbCap)

/-- A block index in `sub`: below `BLOCK` (49_engine.md R383, R384). -/
def indexOk (sub : SubField) : Bool := decide (sub.toNat < Config.block)

/-- A parameter key: 0 to 9 (R351, R352). -/
def keyOk (sub : SubField) : Bool := decide (sub.toNat ≤ 9)

end Sys2Proof.Machine
end

