-- ==== Sys2Proof/Machine/Flags.lean ====
section
/-! DEFINITION. Every flag of the machine: the six fault causes with their codes and `STATUS` bits (spec/10_state.md
R23; spec/60_exceptions.md R402 to R408), and the bits of the `FLAGS` registers of MAP, DIFF, DLINE and CHAN
(R29, R30, R33, R34). No command writes a condition code: every rule says "Flags: none". -/

namespace Sys2Proof.Machine

/-- The six fault causes (R403 to R408). -/
inductive FaultCause
  | illOp
  | illPort
  | illUnit
  | cfgErr
  | idxErr
  | keyErr
  deriving DecidableEq, Repr

/-- The codes 1 to 6 (R403 to R408). -/
def causeCode : FaultCause → Word
  | .illOp => 1
  | .illPort => 2
  | .illUnit => 3
  | .cfgErr => 4
  | .idxErr => 5
  | .keyErr => 6

/-- `1 << (code(c) - 1)`: the sticky bit of the cause in `STATUS` (R402). -/
def causeBit (c : FaultCause) : Word := 1#32 <<< ((causeCode c).toNat - 1)

/-- `b` with bit `k` set to `v`. -/
def putBit {n : Nat} (b : BitVec n) (k : Nat) (v : Bool) : BitVec n :=
  if v then b ||| (1#n <<< k) else b &&& ~~~(1#n <<< k)

/-- `FLAGS.INTERP` of a MAP or DIFF (R29, R30). -/
def flagInterp (f : BitVec 2) : Bool := f.getLsbD 0
/-- `FLAGS.MODEN` of a MAP or DIFF. -/
def flagModEn (f : BitVec 2) : Bool := f.getLsbD 1

/-- `FLAGS.DIFFEN` of a DLINE (R33, 47_delayline.md R295). -/
def flagDiffEn (f : BitVec 5) : Bool := f.getLsbD 0
/-- `FLAGS.LSEN` of a DLINE. -/
def flagLsEn (f : BitVec 5) : Bool := f.getLsbD 1
/-- `FLAGS.HSEN` of a DLINE. -/
def flagHsEn (f : BitVec 5) : Bool := f.getLsbD 2
/-- `FLAGS.CUTEN` of a DLINE. -/
def flagCutEn (f : BitVec 5) : Bool := f.getLsbD 3
/-- `FLAGS.TAPPOST` of a DLINE. -/
def flagTapPost (f : BitVec 5) : Bool := f.getLsbD 4

/-- `FLAGS.HPEN` of a CHAN (R34, 48_channel.md R320). -/
def flagHpEn (f : BitVec 4) : Bool := f.getLsbD 0
/-- `FLAGS.LPEN` of a CHAN. -/
def flagLpEn (f : BitVec 4) : Bool := f.getLsbD 1
/-- `FLAGS.MTEN` of a CHAN. -/
def flagMtEn (f : BitVec 4) : Bool := f.getLsbD 2
/-- `FLAGS.EDEN` of a CHAN. -/
def flagEdEn (f : BitVec 4) : Bool := f.getLsbD 3

end Sys2Proof.Machine
end

