-- ==== Sys2Proof/Machine/Memory.lean ====
section
/-! DEFINITION. A word-addressed memory of one unit (spec/20_memory.md R70 to R74), as a list of (index, word) pairs in
one canonical form: indices strictly rising, no entry equal to what an unlisted index reads as, which is `+0`, the reset
contents of every word (spec/70_reset_and_hazards.md R430 step 2; log entry 2). -/

namespace Sys2Proof.Machine

/-- One memory: the words that are not zero, by rising index. -/
abbrev Mem := List (Nat × Word)

/-- What an unlisted word reads as: `+0`, pattern 0x00000000 (R430 step 2). -/
def memDefault : Word := 0x00000000#32

/-- Word `i` of the memory (`MemRead`, 00_scope.md R16). -/
def memRead : Mem → Nat → Word
  | [], _ => memDefault
  | (b, w) :: m, a => if a = b then w else memRead m a

/-- `m` with word `a` set to `v` (`MemWrite`, R16), in canonical form. -/
def memWrite : Mem → Nat → Word → Mem
  | [], a, v => if v = memDefault then [] else [(a, v)]
  | (b, w) :: m, a, v =>
    if a < b then (if v = memDefault then (b, w) :: m else (a, v) :: (b, w) :: m)
    else if a = b then (if v = memDefault then m else (a, v) :: m)
    else (b, w) :: memWrite m a v

/-- The words of a list written from index `i` up, in ascending order. -/
def memWriteList : Mem → Nat → List Word → Mem
  | m, _, [] => m
  | m, i, v :: vs => memWriteList (memWrite m i v) (i + 1) vs

/-- Words `i` to `i + n - 1`. -/
def memReadList (m : Mem) (i n : Nat) : List Word := (List.range n).map fun j => memRead m (i + j)

/-- "for i in 0 .. cap-1: M[i] <- +0". -/
def memClear (cap : Nat) (m : Mem) : Mem := m.filter fun c => decide (cap ≤ c.1)

/-- Every index of the memory is at least `lo`, the indices rise, and no entry is the default. -/
def memWfFrom : Nat → Mem → Bool
  | _, [] => true
  | lo, (b, w) :: m => decide (lo ≤ b) && decide (w ≠ memDefault) && memWfFrom (b + 1) m

/-- The canonical form holds. -/
def Memory.wf (m : Mem) : Bool := memWfFrom 0 m

/-- Every listed index lies inside a memory of `cap` words. -/
def memWithin (cap : Nat) (m : Mem) : Bool := m.all fun c => decide (c.1 < cap)

/-- `BUF[(WIDX - d) mod CAP]` (20_memory.md R74): the index a read at delay `d` uses. -/
def tapIndex (widx : Nat) (d : Int) (cap : Nat) : Nat := (((widx : Int) - d) % (cap : Int)).toNat

/-- A read at delay `d` from a circular buffer (R74, 43_allpass.md R191). -/
def memTap (buf : Mem) (widx : Nat) (d : Int) (cap : Nat) : Word := memRead buf (tapIndex widx d cap)

/-- `(x + 1) mod n`: the advance of a cursor (R74, R77). -/
def advance (x n : Nat) : Nat := (x + 1) % n

end Sys2Proof.Machine
end

