-- ==== Sys2Proof/Machine/Units.lean ====
section
/-! DEFINITION. The registers and memories of every unit class (spec/10_state.md R23, R25 to R36). A register of type `int`
is a natural number (log entry 9), one of type `F` or `u32` a 32-bit word, a memory a `Mem`. The kind of a shelf and the
variant of a one-pole filter are wiring and no state (R24, R39). -/

namespace Sys2Proof.Machine

/-- Class RNG (R25). -/
structure Rng where
  xLo : Word
  xHi : Word
  deriving DecidableEq, Repr

/-- Class RBUF (R26). -/
structure Rbuf where
  seed : Word
  xseed : F
  count : Nat
  val : Mem
  deriving DecidableEq, Repr

/-- Classes LP1 and HP1 (R27). -/
structure OnePole where
  fc : F
  b0 : F
  a1 : F
  z : F
  deriving DecidableEq, Repr

/-- Class SHELF (R28); the five coefficients are registers 2 to 6. -/
structure Shelf where
  freq : F
  gain : F
  coeffs : Config.ShelfCoeffs
  x1 : F
  x2 : F
  y1 : F
  y2 : F
  deriving DecidableEq, Repr

/-- The tap registers that `TAPCALC` writes (R29, R31). -/
structure Taps where
  delayA : Nat
  delayB : Nat
  gainA : F
  gainB : F
  deriving DecidableEq, Repr

/-- A delay buffer with its modulation: the whole of class MDLY (R31), and the part of class MAP (R29) that has "the
same phase/tap mechanics". -/
structure ModDelay where
  dly : Nat
  modA : F
  modR : F
  phase : F
  cnt : Nat
  taps : Taps
  widx : Nat
  buf : Mem
  deriving DecidableEq, Repr

/-- Class MAP (R29): `FLAGS` bit 0 `INTERP`, bit 1 `MODEN`. -/
structure Allpass where
  core : ModDelay
  fb : F
  flags : BitVec 2
  deriving DecidableEq, Repr

/-- Class DIFF (R30) with its stages `S0` to `S11`. -/
structure Diffuser where
  stages : Nat
  dly : Nat
  fb : F
  modA : F
  modR : F
  seed : Word
  xseed : F
  flags : BitVec 2
  seedV : Mem
  stage : Vector Allpass 12
  deriving DecidableEq, Repr

/-- Class MTAP (R32). -/
structure Multitap where
  taps : Nat
  len : Nat
  decay : F
  seed : Word
  xseed : F
  widx : Nat
  buf : Mem
  seedV : Mem
  tapGain : Mem
  tapPos : Mem
  deriving DecidableEq, Repr

/-- Class DLINE (R33) with its sub-units `DLY`, `DF`, `LS`, `HS`, `DAMP` (R24); `FLAGS` bit 0 `DIFFEN`, 1 `LSEN`,
2 `HSEN`, 3 `CUTEN`, 4 `TAPPOST`. -/
structure DelayLine where
  fb : F
  flags : BitVec 5
  qRd : Nat
  qWr : Nat
  qCount : Nat
  q : Mem
  delay : ModDelay
  df : Diffuser
  ls : Shelf
  hs : Shelf
  damp : OnePole
  deriving DecidableEq, Repr

/-- Class CHAN (R34) with its sub-units (R24); `FLAGS` bit 0 `HPEN`, 1 `LPEN`, 2 `MTEN`, 3 `EDEN`. -/
structure Channel where
  inMix : F
  flags : BitVec 4
  lines : Nat
  decayT : F
  dry : F
  early : F
  lineOut : F
  xseed : F
  hp : OnePole
  lp : OnePole
  pre : ModDelay
  mt : Multitap
  ed : Diffuser
  line : Vector DelayLine 12
  deriving DecidableEq, Repr

/-- Class ENG (R35): the ten normalized parameters by key, and `DIRTY`. -/
structure Engine where
  np : Vector F 10
  dirty : Bool
  deriving DecidableEq, Repr

/-- Class SYS: the fault registers (R23). -/
structure Sys where
  status : Word
  faultCode : Word
  faultCmd : Command
  deriving DecidableEq, Repr

/-- The indices of "for k in 0 .. 11", in ascending order (00_scope.md R17). -/
def idx12 : List (Fin 12) := [0, 1, 2, 3, 4, 5, 6, 7, 8, 9, 10, 11]

/-- `f` at every place of a vector. -/
def vecMap {α β : Type} {n : Nat} (f : α → β) (v : Vector α n) : Vector β n :=
  ⟨⟨v.toList.map f⟩, by simp⟩

/-- A vector from its entries by index. -/
def vecOf12 {α : Type} (f : Fin 12 → α) : Vector α 12 :=
  #v[f 0, f 1, f 2, f 3, f 4, f 5, f 6, f 7, f 8, f 9, f 10, f 11]

end Sys2Proof.Machine
end

