-- ==== Sys2Proof/Machine/DelayUnit.lean ====
section
/-! DEFINITION. The modulated delays: the tap mechanics shared by MAP and MDLY (spec/43_allpass.md R190 to R197), the
all-pass step (R198), the modulated delay step (spec/45_moddelay.md R260), their setters and clears. -/

namespace Sys2Proof.Machine

open Config (Params)

/-- `TAPCALC` (R196): the two taps and their gains from `DLY`, `MODA` and `PHASE`. -/
def tapCalc (cfg : Params) (dly : Nat) (modA phase : F) : Taps :=
  let base := itof dly
  let amt := if fle base modA then fsub base fone else modA
  let m := sat1 (cfg.fsin (fmul Config.twoPi phase))
  let sum := fadd base (fmul amt m)
  let total := if !fle fone sum then fone else sum
  let a := ftoiFloor total
  let frac := fsub total (itof a)
  { delayA := a.toNat, delayB := a.toNat + 1, gainA := fsub fone frac, gainB := frac }

/-- `TAPCALC(U)` on an instance. -/
def ModDelay.retap (cfg : Params) (u : ModDelay) : ModDelay :=
  { u with taps := tapCalc cfg u.dly u.modA u.phase }

/-- The phase after one update period (R197). -/
def nextPhase (phase modR : F) : F :=
  let ph := fadd phase (fmul modR (itof Config.modPeriod))
  let ph' := fsub ph (ffloor ph)
  if fle fzero ph' && flt ph' fone then ph' else fzero

/-- `MODUPDATE(U)` (R197). -/
def ModDelay.modUpdate (u : ModDelay) : ModDelay := { u with phase := nextPhase u.phase u.modR }

/-- "every 8 samples": the update at the start of a modulated step (R198, R260). -/
def ModDelay.tick (cfg : Params) (u : ModDelay) : ModDelay :=
  if Config.modPeriod ≤ u.cnt then { (u.modUpdate.retap cfg) with cnt := 0 } else u

/-- `tap(U, d)` (R191). -/
def ModDelay.tap (u : ModDelay) (cap d : Nat) : F := memTap u.buf u.widx d cap

/-- Both taps blended: `tap(U, DELAYA) * GAINA + tap(U, DELAYB) * GAINB` (R198, R260). -/
def ModDelay.blend (u : ModDelay) (cap : Nat) : F :=
  fadd (fmul (u.tap cap u.taps.delayA) u.taps.gainA) (fmul (u.tap cap u.taps.delayB) u.taps.gainB)

/-- A new base delay (R199, R252). -/
def ModDelay.setDly (cfg : Params) (u : ModDelay) (n : Nat) : ModDelay := ({ u with dly := n }).retap cfg

/-- A new modulation amount (R201, R253). -/
def ModDelay.setModA (cfg : Params) (u : ModDelay) (a : F) : ModDelay := ({ u with modA := a }).retap cfg

/-- A new modulation rate (R202, R254): the taps do not depend on it. -/
def ModDelay.setModR (u : ModDelay) (r : F) : ModDelay := { u with modR := r }

/-- The buffer of `cap` words set to `+0` (R206, R256). -/
def ModDelay.clear (cap : Nat) (u : ModDelay) : ModDelay := { u with buf := memClear cap u.buf }

/-- `MDLY_step(U, v)` (R260): write, update, read at the cursor just written, advance. -/
def mdlyStep (cfg : Params) (u : ModDelay) (v : F) : F × ModDelay :=
  let w := ({ u with buf := memWrite u.buf u.widx v }).tick cfg
  (w.blend Config.dlCap, { w with cnt := w.cnt + 1, widx := advance w.widx Config.dlCap })

/-- The value an all-pass reads and the unit after its modulation update (R198). -/
def Allpass.read (cfg : Params) (u : Allpass) : F × ModDelay :=
  if flagModEn u.flags then
    let c := u.core.tick cfg
    let delayed := if flagInterp u.flags then c.blend Config.apCap else c.tap Config.apCap c.taps.delayA
    (delayed, { c with cnt := c.cnt + 1 })
  else (u.core.tap Config.apCap u.core.dly, u.core)

/-- `MAP_step(U, v)` (R198): read, recurrence (R192), write, advance. -/
def mapStep (cfg : Params) (u : Allpass) (v : F) : F × Allpass :=
  let (delayed, c) := u.read cfg
  let w := fadd v (fmul u.fb delayed)
  let out := fsub delayed (fmul u.fb w)
  (out, { u with core := { c with buf := memWrite c.buf c.widx w, widx := advance c.widx Config.apCap } })

/-- `AP.SETDLY` (R199). -/
def Allpass.setDly (cfg : Params) (u : Allpass) (n : Nat) : Allpass := { u with core := u.core.setDly cfg n }

/-- `AP.SETFB` (R200). -/
def Allpass.setFb (u : Allpass) (g : F) : Allpass := { u with fb := g }

/-- `AP.SETMODA` (R201). -/
def Allpass.setModA (cfg : Params) (u : Allpass) (a : F) : Allpass := { u with core := u.core.setModA cfg a }

/-- `AP.SETMODR` (R202). -/
def Allpass.setModR (u : Allpass) (r : F) : Allpass := { u with core := u.core.setModR r }

/-- `AP.SETINTERP` (R203). -/
def Allpass.setInterp (u : Allpass) (b : Bool) : Allpass := { u with flags := putBit u.flags 0 b }

/-- `AP.SETMODEN` (R204). -/
def Allpass.setModEn (u : Allpass) (b : Bool) : Allpass := { u with flags := putBit u.flags 1 b }

/-- `AP.CLR` (R206). -/
def Allpass.clear (u : Allpass) : Allpass := { u with core := u.core.clear Config.apCap }

end Sys2Proof.Machine
end

