-- ==== Sys2Proof/Machine/RngUnit.lean ====
section
/-! DEFINITION. The generator and the random sequences (spec/40_rng.md R130 to R135), and the operations of the
classes RNG and RBUF. -/

namespace Sys2Proof.Machine

open Config (Params)

/-- `lcg_next(x) = (LCG_A * x + LCG_C) mod 2^32`, over the integers (R131). -/
def lcgNext (cfg : Params) (x : BitVec 64) : BitVec 64 :=
  BitVec.ofNat 64 ((cfg.lcgA.toNat * x.toNat + cfg.lcgC.toNat) % Config.lcgM)

/-- `u32_to_unit(v)`: the binary32 nearest `v / (2^32 - 1)` (R133; 90_conflicts.md C1). -/
def u32ToUnit (v : Word) : F := ratio v.toNat (2 ^ 32 - 1)

/-- The values of the `n` updates after register value `x` (R134). -/
def generateFrom (cfg : Params) : BitVec 64 → Nat → List F
  | _, 0 => []
  | x, n + 1 => u32ToUnit ((lcgNext cfg x).setWidth 32) :: generateFrom cfg (lcgNext cfg x) n

/-- `generate(seed, n)` (R134). -/
def generate (cfg : Params) (seed : Word) (n : Nat) : List F := generateFrom cfg (seed.setWidth 64) n

/-- `a * (1 - c) + b * c` (R135). -/
def crossBlend (c a b : F) : F := fadd (fmul a (fsub fone c)) (fmul b c)

/-- `generateCross(seed, c, n)` (R135). -/
def generateCross (cfg : Params) (seed : Word) (c : F) (n : Nat) : List F :=
  List.zipWith (crossBlend c) (generate cfg seed n) (generate cfg (~~~seed) n)

/-- `x = X_HI ++ X_LO` (10_state.md R25). -/
def Rng.x (r : Rng) : BitVec 64 := r.xHi ++ r.xLo

/-- `RNG.SEED` (R136). -/
def Rng.setSeed (_r : Rng) (seed : Word) : Rng := { xLo := seed, xHi := 0#32 }

/-- `RNG.NEXT` (R137): the value returned and the generator after. -/
def Rng.next (cfg : Params) (r : Rng) : F × Rng :=
  let x := lcgNext cfg r.x
  (u32ToUnit (x.setWidth 32), { xLo := x.setWidth 32, xHi := 0#32 })

/-- `RB.SETSEED` (R138). -/
def Rbuf.setSeed (b : Rbuf) (seed : Word) : Rbuf := { b with seed := seed }

/-- `RB.SETX` (R139). -/
def Rbuf.setX (b : Rbuf) (c : F) : Rbuf := { b with xseed := c }

/-- `RB.GEN` (R140): words at `n` and above keep their value. -/
def Rbuf.gen (cfg : Params) (b : Rbuf) (n : Nat) : Rbuf :=
  { b with val := memWriteList b.val 0 (generate cfg b.seed n), count := n }

/-- `RB.GENX` (R141). -/
def Rbuf.genX (cfg : Params) (b : Rbuf) (n : Nat) : Rbuf :=
  { b with val := memWriteList b.val 0 (generateCross cfg b.seed b.xseed n), count := n }

end Sys2Proof.Machine
end

