-- ==== Sys2Proof/Machine/DiffuserUnit.lean ====
section
/-! DEFINITION. The all-pass diffuser (spec/44_diffuser.md R220 to R235): per-stage derivation, the cascade step, the
setters and the clear. -/

namespace Sys2Proof.Machine

open Config (Params)

/-- `stage_delay(D, k)` from `DLY` and the stage's first random value (R221). -/
def stageDelay (cfg : Params) (dly : Nat) (r : F) : Nat :=
  let x := fmul (fmul (itof dly) (cfg.fpow10 r)) Config.tenth
  if !fle fone x then 1
  else if fle (itof (Config.apCap - 2 : Nat)) x then Config.apCap - 2
  else (ftoiFloor x).toNat

/-- `stage_factor(r) = 0.85 + 0.3 * r` (R222). -/
def stageFactor (r : F) : F := fadd Config.diffScaleLo (fmul Config.diffScaleW r)

/-- The configuration of stage `k` from the diffuser's registers and random values (R223). -/
def deriveStage (cfg : Params) (d : Diffuser) (k : Nat) (s : Allpass) : Allpass :=
  { s with core := ({ s.core with
      dly := stageDelay cfg d.dly (memRead d.seedV k)
      modA := fmul d.modA (stageFactor (memRead d.seedV (12 + k)))
      modR := fmul d.modR (stageFactor (memRead d.seedV (24 + k))) }).retap cfg }

/-- `SEEDV` filled by `generateCross(SEED, XSEED, 36)` (R223). -/
def Diffuser.draw (cfg : Params) (d : Diffuser) : Diffuser :=
  { d with seedV := memWriteList d.seedV 0 (generateCross cfg d.seed d.xseed Config.diffDraws) }

/-- All 12 stages configured from the registers and `SEEDV`, whatever `STAGES` is (R223). -/
def Diffuser.deriveStages (cfg : Params) (d : Diffuser) : Diffuser :=
  { d with stage := vecOf12 fun k => deriveStage cfg d k.val d.stage[k] }

/-- `DIFF_update(D)` (R223). -/
def Diffuser.update (cfg : Params) (d : Diffuser) : Diffuser := (d.draw cfg).deriveStages cfg

/-- One stage of the cascade: stage `k` takes part if `k < STAGES` (R235). -/
def cascadeStage (cfg : Params) (stages : Nat) (acc : F × Vector Allpass 12) (k : Fin 12) : F × Vector Allpass 12 :=
  if k.val < stages then
    let (y, s) := mapStep cfg acc.2[k] acc.1
    (y, acc.2.set k s)
  else acc

/-- `DIFF_step(D, v)` (R235). -/
def diffStep (cfg : Params) (d : Diffuser) (v : F) : F × Diffuser :=
  let r := idx12.foldl (cascadeStage cfg d.stages) (v, d.stage)
  (r.1, { d with stage := r.2 })

/-- `DF.SETSTAGES` (R224). -/
def Diffuser.setStages (d : Diffuser) (n : Nat) : Diffuser := { d with stages := n }

/-- `DF.SETDLY` (R225). -/
def Diffuser.setDly (cfg : Params) (d : Diffuser) (n : Nat) : Diffuser := ({ d with dly := n }).update cfg

/-- `DF.SETFB` (R226): the register and all 12 stages. -/
def Diffuser.setFb (d : Diffuser) (g : F) : Diffuser := { d with fb := g, stage := vecMap (·.setFb g) d.stage }

/-- `DF.SETMODA` (R227). -/
def Diffuser.setModA (cfg : Params) (d : Diffuser) (a : F) : Diffuser := ({ d with modA := a }).update cfg

/-- `DF.SETMODR` (R228). -/
def Diffuser.setModR (cfg : Params) (d : Diffuser) (r : F) : Diffuser := ({ d with modR := r }).update cfg

/-- `DF.SETSEED` (R229). -/
def Diffuser.setSeed (cfg : Params) (d : Diffuser) (seed : Word) : Diffuser := ({ d with seed := seed }).update cfg

/-- `DF.SETX` (R230). -/
def Diffuser.setX (cfg : Params) (d : Diffuser) (c : F) : Diffuser := ({ d with xseed := c }).update cfg

/-- `DF.SETINTERP` (R231). -/
def Diffuser.setInterp (d : Diffuser) (b : Bool) : Diffuser :=
  { d with flags := putBit d.flags 0 b, stage := vecMap (·.setInterp b) d.stage }

/-- `DF.SETMODEN` (R232). -/
def Diffuser.setModEn (d : Diffuser) (b : Bool) : Diffuser :=
  { d with flags := putBit d.flags 1 b, stage := vecMap (·.setModEn b) d.stage }

/-- `DF.CLR` (R234). -/
def Diffuser.clear (d : Diffuser) : Diffuser := { d with stage := vecMap Allpass.clear d.stage }

end Sys2Proof.Machine
end

