-- ==== Sys2Proof/Machine/OnePoleUnit.lean ====
section
/-! DEFINITION. The one-pole filter pair (spec/41_onepole.md R150 to R159): coefficients, the two steps with their
silence branch, and the clear. -/

namespace Sys2Proof.Machine

open Config (Params)

/-- The epsilon is "a positive finite `F`" (R158; 92_eei_decisions.md D11): a raw value that is not is replaced by the
smallest positive one, so that exactly the legal instantiations remain (log entry 5). -/
def positiveFinite (e : F) : F := if flt fzero e && isFinite e then e else 0x00000001#32

/-- `OPF_EPS_LP`. -/
def opfEpsLp (cfg : Params) : F := positiveFinite cfg.epsLp

/-- `OPF_EPS_HP`. -/
def opfEpsHp (cfg : Params) : F := positiveFinite cfg.epsHp

/-- The cutoff limit `FC_CLAMP * FS` (R151). -/
def fcLimit : F := fmul Config.fcClamp Config.fs

/-- `opf_coeffs(f) -> (b0, a1)` (R151). -/
def opfCoeffs (cfg : Params) (f : F) : F × F :=
  let fc := if fle fcLimit f then fcLimit else f
  let x := fdiv (fmul Config.twoPi fc) Config.fs
  let nn := fsub ftwo (cfg.fcos x)
  let alpha := fsub nn (fsqrt (fsub (fmul nn nn) fone))
  (fsub fone alpha, alpha)

/-- `LP.SETFC` and `HP.SETFC` (R152, R155): `FC` keeps the value given, not the clamped one. -/
def OnePole.setFc (cfg : Params) (u : OnePole) (f : F) : OnePole :=
  { u with fc := f, b0 := (opfCoeffs cfg f).1, a1 := (opfCoeffs cfg f).2 }

/-- The recurrence `B0 * v + A1 * Z` of both variants (R158, R159). -/
def OnePole.recur (u : OnePole) (v : F) : F := fadd (fmul u.b0 v) (fmul u.a1 u.z)

/-- `LP1_step(U, v)` (R158). -/
def lp1Step (cfg : Params) (u : OnePole) (v : F) : F × OnePole :=
  let z := if feq v fzero && flt u.z (opfEpsLp cfg) then fzero else u.recur v
  (z, { u with z := z })

/-- `HP1_step(U, v)` (R159): the silence branch leaves `Z` as it is. -/
def hp1Step (cfg : Params) (u : OnePole) (v : F) : F × OnePole :=
  if feq v fzero && flt u.z (opfEpsHp cfg) then (fzero, u)
  else (fsub v (u.recur v), { u with z := u.recur v })

/-- `LP.CLR` and `HP.CLR` (R154, R157). -/
def OnePole.clear (u : OnePole) : OnePole := { u with z := fzero }

end Sys2Proof.Machine
end

