-- ==== Sys2Proof/Machine/ShelfUnit.lean ====
section
/-! DEFINITION. The shelf filter (spec/42_shelf.md R170 to R178): gain clamp, coefficients by the free function
`shelf_coeffs` (R173), the recurrence in direct form I, and the clear. -/

namespace Sys2Proof.Machine

open Config (Params ShelfKind)

/-- `clamp_gain(g)` (R171). -/
def clampGain (g : F) : F :=
  if flt g (fneg Config.shelfGainLim) then fneg Config.shelfGainLim
  else if flt Config.shelfGainLim g then Config.shelfGainLim
  else g

/-- `SH.SETF` on a shelf of kind `k` (R175). -/
def Shelf.setF (cfg : Params) (k : ShelfKind) (u : Shelf) (f : F) : Shelf :=
  { u with freq := f, coeffs := cfg.shelfCoeffs k f u.gain }

/-- `SH.SETG` on a shelf of kind `k` (R176): `GAIN` holds the clamped value. -/
def Shelf.setG (cfg : Params) (k : ShelfKind) (u : Shelf) (g : F) : Shelf :=
  { u with gain := clampGain g, coeffs := cfg.shelfCoeffs k u.freq (clampGain g) }

/-- The output of `SHELF_step`, summed from left to right (R172). -/
def Shelf.output (u : Shelf) (v : F) : F :=
  fsub (fsub (fadd (fadd (fmul u.coeffs.b0 v) (fmul u.coeffs.b1 u.x1)) (fmul u.coeffs.b2 u.x2))
    (fmul u.coeffs.a1 u.y1)) (fmul u.coeffs.a2 u.y2)

/-- `SHELF_step(U, v)` (R172). -/
def shelfStep (u : Shelf) (v : F) : F × Shelf :=
  let y := u.output v
  (y, { u with x2 := u.x1, x1 := v, y2 := u.y1, y1 := y })

/-- `SH.CLR` (R178). -/
def Shelf.clear (u : Shelf) : Shelf := { u with x1 := fzero, x2 := fzero, y1 := fzero, y2 := fzero }

end Sys2Proof.Machine
end

