-- ==== Sys2Proof/Machine/DelayLineUnit.lean ====
section
/-! DEFINITION. The delay line (spec/47_delayline.md R290 to R298): the feedback queue (spec/20_memory.md R77), the
signal path of one sample, the block operation in its three phases (R293), the setters and the clear. -/

namespace Sys2Proof.Machine

open Config (Params)

/-- Push of one value: dropped if the queue is full (R77). -/
def DelayLine.push (l : DelayLine) (v : F) : DelayLine :=
  if l.qCount < Config.fbqCap then
    { l with q := memWrite l.q l.qWr v, qWr := advance l.qWr Config.fbqCap, qCount := l.qCount + 1 }
  else l

/-- Pop of one value: `+0` and no change if the queue is empty (R77). -/
def DelayLine.pop (l : DelayLine) : F × DelayLine :=
  if 0 < l.qCount then
    (memRead l.q l.qRd, { l with qRd := advance l.qRd Config.fbqCap, qCount := l.qCount - 1 })
  else (fzero, l)

/-- `n` pops: phase 1 (R293). -/
def DelayLine.popN : Nat → DelayLine → List F × DelayLine
  | 0, l => ([], l)
  | n + 1, l =>
    let (v, l1) := l.pop
    let (vs, l2) := DelayLine.popN n l1
    (v :: vs, l2)

/-- Pushes in order: phase 3 (R293). -/
def DelayLine.pushAll (l : DelayLine) (vs : List F) : DelayLine := vs.foldl DelayLine.push l

/-- The optional diffuser (R293). -/
def DelayLine.viaDiffuser (cfg : Params) (l : DelayLine) (y : F) : F × DelayLine :=
  if flagDiffEn l.flags then
    let (y', df) := diffStep cfg l.df y
    (y', { l with df := df })
  else (y, l)

/-- The optional low shelf. -/
def DelayLine.viaLowShelf (l : DelayLine) (y : F) : F × DelayLine :=
  if flagLsEn l.flags then
    let (y', ls) := shelfStep l.ls y
    (y', { l with ls := ls })
  else (y, l)

/-- The optional high shelf. -/
def DelayLine.viaHighShelf (l : DelayLine) (y : F) : F × DelayLine :=
  if flagHsEn l.flags then
    let (y', hs) := shelfStep l.hs y
    (y', { l with hs := hs })
  else (y, l)

/-- The optional damping filter, the low-pass variant (R296). -/
def DelayLine.viaDamping (cfg : Params) (l : DelayLine) (y : F) : F × DelayLine :=
  if flagCutEn l.flags then
    let (y', damp) := lp1Step cfg l.damp y
    (y', { l with damp := damp })
  else (y, l)

/-- The output of a line from its main delay output `d`, the signal `t` after the diffuser and the end of the chain `y`
(R292). -/
def lineTap (flags : BitVec 5) (d t y : F) : F :=
  if flagTapPost flags then
    match Config.postTapPoint with
    | .afterDiffuser => t
    | .endOfChain => y
  else d

/-- One sample of phase 2 (R293): the output, the value for the queue, the line after. -/
def DelayLine.sample (cfg : Params) (l : DelayLine) (x fbv : F) : F × F × DelayLine :=
  let (d, delay) := mdlyStep cfg l.delay (fadd x (fmul fbv l.fb))
  let l0 := { l with delay := delay }
  let (t, l1) := l0.viaDiffuser cfg d
  let (y1, l2) := l1.viaLowShelf t
  let (y2, l3) := l2.viaHighShelf y1
  let (y, l4) := l3.viaDamping cfg y2
  (lineTap l.flags d t y, y, l4)

/-- Phase 2 over the samples with their feedback values: outputs, values for the queue, the line after. -/
def DelayLine.samples (cfg : Params) : DelayLine → List (F × F) → List F × List F × DelayLine
  | l, [] => ([], [], l)
  | l, (x, fbv) :: rest =>
    let (o, p, l1) := l.sample cfg x fbv
    let (os, ps, l2) := DelayLine.samples cfg l1 rest
    (o :: os, p :: ps, l2)

/-- `DLINE_proc(L, x, n)` with `n` the length of `x` (R293). -/
def dlineProc (cfg : Params) (l : DelayLine) (x : List F) : List F × DelayLine :=
  let (fbv, l1) := DelayLine.popN x.length l
  let (out, post, l2) := l1.samples cfg (x.zip fbv)
  (out, l2.pushAll post)

/-- `DL.SETFB` (R294). -/
def DelayLine.setFb (l : DelayLine) (g : F) : DelayLine := { l with fb := g }

/-- `DL.SETFLAGS` (R295). -/
def DelayLine.setFlags (l : DelayLine) (m : BitVec 5) : DelayLine := { l with flags := m }

/-- `DL.CLR` (R298). -/
def DelayLine.clear (l : DelayLine) : DelayLine :=
  { l with
    delay := l.delay.clear Config.dlCap, df := l.df.clear, ls := l.ls.clear, hs := l.hs.clear, damp := l.damp.clear
    q := memClear Config.fbqCap l.q, qRd := 0, qWr := 0, qCount := 0 }

end Sys2Proof.Machine
end

