-- ==== Sys2Proof/Machine/MultitapUnit.lean ====
section
/-! DEFINITION. The multitap delay (spec/46_multitap.md R270 to R281): per-tap attributes, the gain normalisation, the
step, the setters and the clear; and `db2lin` (spec/00_scope.md R14). -/

namespace Sys2Proof.Machine

open Config (Params)

/-- `db2lin(d) = fpow10(d / 20)` (00_scope.md R14). -/
def db2lin (cfg : Params) (d : F) : F := cfg.fpow10 (fdiv d (itof 20))

/-- `TAPGAIN[i]` from the first two values of the tap's triple (R271). -/
def tapGainOf (cfg : Params) (r0 r1 : F) : F :=
  let sign := if flt r0 fhalf then fone else fnegOne
  fmul (db2lin cfg (fadd Config.mtDbMin (fmul Config.mtDbWidth r1))) sign

/-- `TAPPOS[i]` from the third value (R271). -/
def tapPosOf (i : Nat) (r2 : F) : F := fadd (itof i) r2

/-- `mt_total_gain(U)` (R272). -/
def totalGain (taps : Nat) (decay : F) : F :=
  fmul (fdiv Config.mtGainNum (fsqrt (fadd fone (itof taps)))) (fadd fone (fmul ftwo decay))

/-- `SEEDV` filled by `generateCross(SEED, XSEED, 768)` (R273). -/
def Multitap.draw (cfg : Params) (u : Multitap) : Multitap :=
  { u with seedV := memWriteList u.seedV 0 (generateCross cfg u.seed u.xseed (3 * Config.maxTaps)) }

/-- All 256 taps derived from `SEEDV` (R271, R273). -/
def Multitap.deriveTaps (cfg : Params) (u : Multitap) : Multitap :=
  { u with
    tapGain := memWriteList u.tapGain 0 ((List.range Config.maxTaps).map fun i =>
      tapGainOf cfg (memRead u.seedV (3 * i)) (memRead u.seedV (3 * i + 1)))
    tapPos := memWriteList u.tapPos 0 ((List.range Config.maxTaps).map fun i =>
      tapPosOf i (memRead u.seedV (3 * i + 2))) }

/-- `MTAP_update(U)` (R273). -/
def Multitap.update (cfg : Params) (u : Multitap) : Multitap := (u.draw cfg).deriveTaps cfg

/-- The offset of tap `i`: `ftoi_floor(TAPPOS[i] * (len / n))` (R281). -/
def tapOffset (pos len n : F) : Int := ftoiFloor (fmul pos (fdiv len n))

/-- `decayEffective` (R281). -/
def tapEnvelope (cfg : Params) (off : Int) (len decay : F) : F :=
  fadd (fmul (cfg.fexp (fmul (fdiv (fneg (itof off)) len) Config.mtDecayK)) decay) (fsub fone decay)

/-- The contribution of tap `i`, read with the cursor at the word just written (R281). -/
def Multitap.tapTerm (cfg : Params) (u : Multitap) (i : Nat) : F :=
  let len := itof u.len
  let off := tapOffset (memRead u.tapPos i) len (itof u.taps)
  fmul (fmul (fmul (memTap u.buf u.widx off Config.dlCap) (memRead u.tapGain i)) (tapEnvelope cfg off len u.decay))
    (totalGain u.taps u.decay)

/-- `MTAP_step(U, v)` (R281): write, sum the taps in ascending order from `+0`, advance. -/
def mtapStep (cfg : Params) (u : Multitap) (v : F) : F × Multitap :=
  let w := { u with buf := memWrite u.buf u.widx v }
  ((List.range w.taps).foldl (fun acc i => fadd acc (w.tapTerm cfg i)) fzero,
    { w with widx := advance w.widx Config.dlCap })

/-- `MT.SETTAPS` (R274). -/
def Multitap.setTaps (u : Multitap) (n : Nat) : Multitap := { u with taps := n }

/-- `MT.SETLEN` (R275). -/
def Multitap.setLen (u : Multitap) (n : Nat) : Multitap := { u with len := n }

/-- `MT.SETDECAY` (R276). -/
def Multitap.setDecay (u : Multitap) (d : F) : Multitap := { u with decay := d }

/-- `MT.SETSEED` (R277). -/
def Multitap.setSeed (cfg : Params) (u : Multitap) (seed : Word) : Multitap := ({ u with seed := seed }).update cfg

/-- `MT.SETX` (R278). -/
def Multitap.setX (cfg : Params) (u : Multitap) (c : F) : Multitap := ({ u with xseed := c }).update cfg

/-- `MT.CLR` (R280). -/
def Multitap.clear (u : Multitap) : Multitap := { u with buf := memClear Config.dlCap u.buf }

end Sys2Proof.Machine
end

