-- ==== Sys2Proof/Machine/ChannelUnit.lean ====
section
/-! DEFINITION. The reverb channel (spec/48_channel.md R310 to R328): input stage, flush, early stages, the block
operation (R314), the line feedback gains (R315), the setters and the clear. -/

namespace Sys2Proof.Machine

open Config (Params)

/-- `flush(a)` (R312). -/
def flush (a : F) : F := if flt (fmul a a) Config.flushThresh then fzero else a

/-- The optional high-pass (R311). -/
def Channel.viaHighPass (cfg : Params) (c : Channel) (a : F) : F × Channel :=
  if flagHpEn c.flags then
    let (a', hp) := hp1Step cfg c.hp a
    (a', { c with hp := hp })
  else (a, c)

/-- The optional low-pass (R311). -/
def Channel.viaLowPass (cfg : Params) (c : Channel) (a : F) : F × Channel :=
  if flagLpEn c.flags then
    let (a', lp) := lp1Step cfg c.lp a
    (a', { c with lp := lp })
  else (a, c)

/-- `CHAN_input(C, v)` (R311). -/
def chanInput (cfg : Params) (c : Channel) (v : F) : F × Channel :=
  let (a1, c1) := c.viaHighPass cfg (fmul v c.inMix)
  let (a2, c2) := c1.viaLowPass cfg a1
  (flush a2, c2)

/-- The pre-delay (R313). -/
def Channel.viaPreDelay (cfg : Params) (c : Channel) (a : F) : F × Channel :=
  let (e, pre) := mdlyStep cfg c.pre a
  (e, { c with pre := pre })

/-- The optional multitap delay (R313). -/
def Channel.viaMultitap (cfg : Params) (c : Channel) (e : F) : F × Channel :=
  if flagMtEn c.flags then
    let (e', mt) := mtapStep cfg c.mt e
    (e', { c with mt := mt })
  else (e, c)

/-- The optional early diffuser (R313). -/
def Channel.viaEarlyDiffuser (cfg : Params) (c : Channel) (e : F) : F × Channel :=
  if flagEdEn c.flags then
    let (e', ed) := diffStep cfg c.ed e
    (e', { c with ed := ed })
  else (e, c)

/-- `CHAN_early(C, a)` (R313); its result is the early tap (R318). -/
def chanEarly (cfg : Params) (c : Channel) (a : F) : F × Channel :=
  let (e1, c1) := c.viaPreDelay cfg a
  let (e2, c2) := c1.viaMultitap cfg e1
  c2.viaEarlyDiffuser cfg e2

/-- The early taps of a block (R314, first loop). -/
def chanEarlyBlock (cfg : Params) : Channel → List F → List F × Channel
  | c, [] => ([], c)
  | c, x :: xs =>
    let (a, c1) := chanInput cfg c x
    let (e, c2) := chanEarly cfg c1 a
    let (es, c3) := chanEarlyBlock cfg c2 xs
    (e :: es, c3)

/-- Line `j` over the block `e`, its output added to the running sums (R314): a line from `LINES` up is not processed. -/
def chanLine (cfg : Params) (lines : Nat) (e : List F) (acc : List F × Vector DelayLine 12) (j : Fin 12) :
    List F × Vector DelayLine 12 :=
  if j.val < lines then
    let (lo, l) := dlineProc cfg acc.2[j] e
    (List.zipWith fadd acc.1 lo, acc.2.set j l)
  else acc

/-- The lines over the block `e`: the sums over the lines, in ascending order from `+0`, and the lines after (R314). -/
def chanLines (cfg : Params) (c : Channel) (e : List F) : List F × Channel :=
  let r := idx12.foldl (chanLine cfg c.lines e) (e.map fun _ => fzero, c.line)
  (r.1, { c with line := r.2 })

/-- `1 / fsqrt(itof(LINES))` (R314). -/
def lineScale (lines : Nat) : F := fdiv fone (fsqrt (itof lines))

/-- `DRY * x + EARLY * e + LINEOUT * (sum * g)` (R314). -/
def chanMix (c : Channel) (x e sum : F) : F :=
  fadd (fadd (fmul c.dry x) (fmul c.early e)) (fmul c.lineOut (fmul sum (lineScale c.lines)))

/-- `CHAN_proc(C, x, n)` with `n` the length of `x` (R314). -/
def chanProc (cfg : Params) (c : Channel) (x : List F) : List F × Channel :=
  let (e, c1) := chanEarlyBlock cfg c x
  let (sums, c2) := chanLines cfg c1 e
  (List.zipWith (fun xe s => chanMix c xe.1 xe.2 s) (x.zip e) sums, c2)

/-- `line_fb(C, j)` from the line's base delay and `DECAYT` (R315). -/
def lineFb (cfg : Params) (dly : Nat) (decayT : F) : F :=
  db2lin cfg (fmul (fdiv (itof dly) decayT) Config.decayDb)

/-- `CH.SETINMIX` (R319). -/
def Channel.setInMix (c : Channel) (g : F) : Channel := { c with inMix := g }

/-- `CH.SETFLAGS` (R320). -/
def Channel.setFlags (c : Channel) (m : BitVec 4) : Channel := { c with flags := m }

/-- `CH.SETLINES` (R321). -/
def Channel.setLines (c : Channel) (n : Nat) : Channel := { c with lines := n }

/-- `CH.SETDECAY` (R322): all 12 lines get their gain. -/
def Channel.setDecay (cfg : Params) (c : Channel) (t : F) : Channel :=
  { c with decayT := t, line := vecMap (fun l => l.setFb (lineFb cfg l.delay.dly t)) c.line }

/-- `CH.SETDRY` (R323). -/
def Channel.setDry (c : Channel) (g : F) : Channel := { c with dry := g }

/-- `CH.SETEARLY` (R324). -/
def Channel.setEarly (c : Channel) (g : F) : Channel := { c with early := g }

/-- `CH.SETLINEOUT` (R325). -/
def Channel.setLineOut (c : Channel) (g : F) : Channel := { c with lineOut := g }

/-- `CH.SETX` (R326): the multitap, the early diffuser and all 12 line diffusers get the cross seed. -/
def Channel.setX (cfg : Params) (c : Channel) (x : F) : Channel :=
  { c with
    xseed := x, mt := c.mt.setX cfg x, ed := c.ed.setX cfg x
    line := vecMap (fun l => { l with df := l.df.setX cfg x }) c.line }

/-- `CH.CLR` (R328). -/
def Channel.clear (c : Channel) : Channel :=
  { c with
    hp := c.hp.clear, lp := c.lp.clear, pre := c.pre.clear Config.dlCap, mt := c.mt.clear, ed := c.ed.clear
    line := vecMap DelayLine.clear c.line }

end Sys2Proof.Machine
end

