-- ==== Sys2Proof/Machine/EngineUnit.lean ====
section
/-! DEFINITION. The engine (spec/49_engine.md): response curves (R341 to R343), cross-seed split (R348), `DERIVE` under
the constraints of R362, `ApplyConfig` (R363), the mix law (R357); and the reset of a channel
(spec/70_reset_and_hazards.md R430). -/

namespace Sys2Proof.Machine

open Config (Params ChannelConfig DelayConfig MultitapConfig DiffuserConfig LineConfig DeriveArgs)

/-! ## Response curves -/

/-- `100/99` as binary32 (R341). -/
def hundred99ths : F := 0x3F814AFD#32
/-- `0.01` as binary32 (R341). -/
def hundredth : F := 0x3C23D70A#32
/-- `1000/999` as binary32 (R342). -/
def thousand999ths : F := 0x3F8020CD#32
/-- `0.001` as binary32 (R342). -/
def thousandth : F := 0x3A83126F#32
/-- `16/15` as binary32 (R343). -/
def sixteen15ths : F := 0x3F888889#32
/-- `0.0625` as binary32 (R343). -/
def sixteenth : F := 0x3D800000#32

/-- `resp2dec(x) = ((fpow10(2 * x) - 1) * (100/99)) * 0.01` (R341). -/
def resp2dec (cfg : Params) (x : F) : F :=
  fmul (fmul (fsub (cfg.fpow10 (fmul ftwo x)) fone) hundred99ths) hundredth

/-- `resp3dec(x) = ((fpow10(3 * x) - 1) * (1000/999)) * 0.001` (R342). -/
def resp3dec (cfg : Params) (x : F) : F :=
  fmul (fmul (fsub (cfg.fpow10 (fmul (itof 3) x)) fone) thousand999ths) thousandth

/-- `resp4oct(x) = ((fpow2(4 * x) - 1) * (16/15)) * 0.0625` (R343). -/
def resp4oct (cfg : Params) (x : F) : F :=
  fmul (fmul (fsub (cfg.fpow2 (fmul (itof 4) x)) fone) sixteen15ths) sixteenth

/-- `xseed_of(side, c)` (R348). -/
def xseedOf (sd : Side) (c : F) : F :=
  match sd with
  | .R => fmul fhalf c
  | .L => fsub fone (fmul fhalf c)

/-- `MIXLAW(m, dry, wet) = (1 - m) * dry + m * wet` (R357). -/
def mixLaw (m dry wet : F) : F := fadd (fmul (fsub fone m) dry) (fmul m wet)

/-- `NP[k]` (R352). -/
def Engine.param (e : Engine) (k : Nat) : F := e.np[k]?.getD fzero

/-- `NP[k] <- clamp01(v); if k != 4 then DIRTY <- 1` (R351). -/
def Engine.setParam (e : Engine) (k : Nat) (v : F) : Engine where
  np := e.np.setIfInBounds k (clamp01 v)
  dirty := e.dirty || k != 4

/-! ## `DERIVE` (R361, R362)

A configuration function that satisfies R362 returns legal fields, the cross seed of its side, a decay time between
0.05 s and 60 s, the input weight it is given (95_test_vectors.md section 1.8) and the same seeds for both sides (R143). The
machine takes the free function `Params.derive` and replaces each field that is not so by one that is, so that exactly the
functions the spec allows remain (log entry 4). -/

/-- `v` if it is legal, else `d`. -/
def legalOr {α : Type} (ok : Bool) (v d : α) : α := if ok then v else d

/-- A finite value, `+0` for any other. -/
def legalFinite (v : F) : F := legalOr (isFinite v) v fzero

/-- A gain of the range -60 to 60 dB (R361). -/
def legalGain (g : F) : F := legalOr (inRange (fneg Config.shelfGainLim) Config.shelfGainLim g) g fzero

/-- Legal fields for an MDLY (R361, 45_moddelay.md R251). -/
def legalDelay (k : DelayConfig) : DelayConfig where
  dly := legalOr (delayOk Config.dlCap k.dly) k.dly 1
  modA := legalOr (modAOk Config.dlCap k.modA) k.modA fzero
  modR := legalOr (modROk k.modR) k.modR fzero

/-- Legal fields for the MTAP (R361). -/
def legalMultitap (k : MultitapConfig) : MultitapConfig where
  taps := legalOr (tapsOk k.taps) k.taps 1
  len := legalOr (lenOk k.len) k.len 1
  decay := legalOr (inUnit k.decay) k.decay fzero
  seed := k.seed

/-- Legal fields for a DIFF (R361). -/
def legalDiffuser (k : DiffuserConfig) : DiffuserConfig where
  stages := legalOr (stagesOk k.stages) k.stages 0
  dly := legalOr (delayOk Config.apCap k.dly) k.dly 1
  fb := legalFinite k.fb
  modA := legalOr (modAOk (Config.apCap / 2) k.modA) k.modA fzero
  modR := legalOr (diffModROk k.modR) k.modR fzero
  seed := k.seed
  interp := k.interp
  modEn := k.modEn

/-- Legal fields for a line (R361). -/
def legalLine (k : LineConfig) : LineConfig where
  delay := legalDelay k.delay
  flags := k.flags
  df := legalDiffuser k.df
  lsF := legalFinite k.lsF
  lsG := legalGain k.lsG
  hsF := legalFinite k.hsF
  hsG := legalGain k.hsG
  dampFc := legalFinite k.dampFc

/-- `0.05 s` in samples, 2400.0 (R362 (e), R365). -/
def decayMin : F := 0x45160000#32
/-- `60 s` in samples, 2880000.0 (R362 (e), R365). -/
def decayMax : F := 0x4A2FC800#32

/-- Legal fields for a channel, with the cross seed `x` of its side (R361, R362 (a), (b), (e)) and the input weight
`inputMix`: "`INMIX` = `0x3F800000` under any `DERIVE` that obeys R362" (95_test_vectors.md section 1.8; 10_state.md R34,
90_conflicts.md C6). -/
def legalChannel (x inputMix : F) (k : ChannelConfig) : ChannelConfig where
  inMix := inputMix
  dry := legalFinite k.dry
  early := legalFinite k.early
  lineOut := legalFinite k.lineOut
  flags := k.flags
  lines := legalOr (linesOk k.lines) k.lines 1
  decayT := legalOr (inRange decayMin decayMax k.decayT) k.decayT decayMin
  xseed := x
  hpFc := legalFinite k.hpFc
  lpFc := legalFinite k.lpFc
  pre := legalDelay k.pre
  mt := legalMultitap k.mt
  ed := legalDiffuser k.ed
  line := vecMap legalLine k.line

/-- The record `k` with every seed that of `k0`: "each channel's units have the same `SEED` values" (40_rng.md R143). -/
def withSeedsOf (k0 k : ChannelConfig) : ChannelConfig :=
  { k with
    mt := { k.mt with seed := k0.mt.seed }
    ed := { k.ed with seed := k0.ed.seed }
    line := vecOf12 fun j => { k.line[j] with df := { k.line[j].df with seed := k0.line[j].df.seed } } }

/-- The arguments of `DERIVE` that R362 (c), (d), (f) let its result depend on: every parameter but mix, `inputMix`,
and the side through its cross seed. -/
def deriveArgs (p : Vector F 10) (inputMix : F) (sd : Side) : DeriveArgs where
  predelay := p[0]
  size := p[1]
  decay := p[2]
  diffusion := p[3]
  lowCut := p[5]
  highCut := p[6]
  crossSeed := p[7]
  modRate := p[8]
  modAmount := p[9]
  inputMix := inputMix
  xseed := xseedOf sd p[7]

/-- `DERIVE(P, inputMix, side)` (R361, R362), both sides with the seeds that the free function gives for `L` (R143). -/
def deriveConfig (cfg : Params) (p : Vector F 10) (inputMix : F) (sd : Side) : ChannelConfig :=
  legalChannel (xseedOf sd p[7]) inputMix
    (withSeedsOf (cfg.derive (deriveArgs p inputMix .L)) (cfg.derive (deriveArgs p inputMix sd)))

/-! ## `ApplyConfig` (R363): the setters of the family files, in the order of the rule -/

/-- `MD.SETDLY; MD.SETMODA; MD.SETMODR`. -/
def applyDelay (cfg : Params) (u : ModDelay) (k : DelayConfig) : ModDelay :=
  ((u.setDly cfg k.dly).setModA cfg k.modA).setModR k.modR

/-- `MT.SETTAPS; MT.SETLEN; MT.SETDECAY; MT.SETSEED`. -/
def applyMultitap (cfg : Params) (u : Multitap) (k : MultitapConfig) : Multitap :=
  (((u.setTaps k.taps).setLen k.len).setDecay k.decay).setSeed cfg k.seed

/-- The eight `DF.SET*` commands. -/
def applyDiffuser (cfg : Params) (d : Diffuser) (k : DiffuserConfig) : Diffuser :=
  let d1 := ((d.setStages k.stages).setDly cfg k.dly).setFb k.fb
  let d2 := ((d1.setModA cfg k.modA).setModR cfg k.modR).setSeed cfg k.seed
  (d2.setInterp k.interp).setModEn k.modEn

/-- The commands on a line and below. -/
def applyLine (cfg : Params) (l : DelayLine) (k : LineConfig) : DelayLine :=
  { l.setFlags k.flags with
    delay := applyDelay cfg l.delay k.delay
    df := applyDiffuser cfg l.df k.df
    ls := (l.ls.setF cfg .low k.lsF).setG cfg .low k.lsG
    hs := (l.hs.setF cfg .high k.hsF).setG cfg .high k.hsG
    damp := l.damp.setFc cfg k.dampFc }

/-- Every command of the list but the last two. -/
def applyBelow (cfg : Params) (c : Channel) (k : ChannelConfig) : Channel :=
  let c1 := ((c.setInMix k.inMix).setFlags k.flags).setLines k.lines
  let c2 := ((c1.setDry k.dry).setEarly k.early).setLineOut k.lineOut
  { c2 with
    hp := c.hp.setFc cfg k.hpFc
    lp := c.lp.setFc cfg k.lpFc
    pre := applyDelay cfg c.pre k.pre
    mt := applyMultitap cfg c.mt k.mt
    ed := applyDiffuser cfg c.ed k.ed
    line := vecOf12 fun j => applyLine cfg c.line[j] k.line[j] }

/-- `ApplyConfig(C, K)`: `CH.SETX` after all seeds, `CH.SETDECAY` after all line delays (R363). -/
def applyConfig (cfg : Params) (c : Channel) (k : ChannelConfig) : Channel :=
  ((applyBelow cfg c k).setX cfg k.xseed).setDecay cfg k.decayT

/-! ## Reset of a channel (70_reset_and_hazards.md R430, steps 2 to 4 and 6) -/

/-- A one-pole filter before `ApplyConfig`. -/
def blankOnePole : OnePole := { fc := fzero, b0 := fzero, a1 := fzero, z := fzero }

/-- A shelf before `ApplyConfig`. -/
def blankShelf : Shelf where
  freq := fzero
  gain := fzero
  coeffs := { b0 := fzero, b1 := fzero, b2 := fzero, a1 := fzero, a2 := fzero }
  x1 := fzero
  x2 := fzero
  y1 := fzero
  y2 := fzero

/-- An MDLY, or the delay of a MAP, before `ApplyConfig`: integers `DLY` 1. -/
def blankModDelay : ModDelay where
  dly := 1
  modA := fzero
  modR := fzero
  phase := fzero
  cnt := 0
  taps := { delayA := 0, delayB := 0, gainA := fzero, gainB := fzero }
  widx := 0
  buf := []

/-- A MAP before `ApplyConfig`. -/
def blankAllpass : Allpass := { core := blankModDelay, fb := fzero, flags := 0 }

/-- A DIFF before `ApplyConfig`: `STAGES` 0, `DLY` 1. -/
def blankDiffuser : Diffuser where
  stages := 0
  dly := 1
  fb := fzero
  modA := fzero
  modR := fzero
  seed := 0
  xseed := fzero
  flags := 0
  seedV := []
  stage := vecOf12 fun _ => blankAllpass

/-- An MTAP before `ApplyConfig`: `TAPS` 1, `LEN` 1. -/
def blankMultitap : Multitap where
  taps := 1
  len := 1
  decay := fzero
  seed := 0
  xseed := fzero
  widx := 0
  buf := []
  seedV := []
  tapGain := []
  tapPos := []

/-- A DLINE before `ApplyConfig`. -/
def blankLine : DelayLine where
  fb := fzero
  flags := 0
  qRd := 0
  qWr := 0
  qCount := 0
  q := []
  delay := blankModDelay
  df := blankDiffuser
  ls := blankShelf
  hs := blankShelf
  damp := blankOnePole

/-- A CHAN before `ApplyConfig`: `LINES` 1, `DECAYT` 1.0. -/
def blankChannel : Channel where
  inMix := fzero
  flags := 0
  lines := 1
  decayT := fone
  dry := fzero
  early := fzero
  lineOut := fzero
  xseed := fzero
  hp := blankOnePole
  lp := blankOnePole
  pre := blankModDelay
  mt := blankMultitap
  ed := blankDiffuser
  line := vecOf12 fun _ => blankLine

/-- A channel after reset (R430 step 6). -/
def resetChannel (cfg : Params) (sd : Side) : Channel :=
  applyConfig cfg blankChannel (deriveConfig cfg Config.defaultParams Config.defaultInputMix sd)

/-- The fault registers after reset (R430 step 1). -/
def resetSys : Sys := { status := 0, faultCode := 0, faultCmd := 0 }

/-- A result register after reset (R430 step 1). -/
def resetRes : Word := 0

/-- `RNG0` after reset (R430 step 3). -/
def resetRng : Rng := { xLo := 0, xHi := 0 }

/-- `RBUF0` after reset (R430 steps 2, 3). -/
def resetRbuf : Rbuf := { seed := 0, xseed := fzero, count := 0, val := [] }

/-- `IO0` to `IO3` after reset (R430 step 2). -/
def resetIo : Vector Mem 4 := #v[[], [], [], []]

/-- The engine registers after reset (R430 step 5). -/
def resetEngine : Engine := { np := Config.defaultParams, dirty := false }

end Sys2Proof.Machine
end

