-- ==== Sys2Proof/Machine/State.lean ====
section
/-! DEFINITION. The state of CSCORE as plain data (spec/10_state.md R20 to R38), the reasons a step could stop, and the
state after reset (spec/70_reset_and_hazards.md R430, R431). -/

namespace Sys2Proof.Machine

/-- The reasons a step could stop with a fault. There is none: a fault of CSCORE is recorded in the fault registers and
the machine goes on (60_exceptions.md R402), and "no behaviour of CSCORE is `stuck`" (93_implementation_defined.md
part 1; log entry 16). No constructor, so nothing raises one: safe. -/
inductive Fault
  deriving DecidableEq, Repr

/-- The reasons a step could refuse an instruction. -/
inductive Refusal
  /-- Raised by `exec` alone, in the arm of an instruction that has no meaning yet; no arm is left that does. Safe: the
  machine stops where the hardware would go on. -/
  | notModelled (mnemonic : String)
  deriving DecidableEq, Repr

/-- What the outside world can do to the machine between two commands: issue a command word on a port (R20), or assert
the reset input (R430). -/
inductive Event
  | command (p : Port) (w : Command)
  | resetInput
  deriving DecidableEq, Repr

/-- The state: every register and memory of R21 to R36, and the model's own bookkeeping of the commands to come. -/
structure State where
  /-- `SYS` (R23). -/
  sys : Sys
  /-- `RES[A]` (R21). -/
  resA : Word
  /-- `RES[C]` (R21). -/
  resC : Word
  /-- `ENG` (R35). -/
  eng : Engine
  /-- `RNG0` (R25). -/
  rng : Rng
  /-- `RBUF0` (R26). -/
  rbuf : Rbuf
  /-- `IO0` to `IO3` (R36). -/
  io : Vector Mem 4
  /-- The left channel `L` (R24, R34). -/
  left : Channel
  /-- The right channel `R`. -/
  right : Channel
  /-- The model's own (log entry 1): the port of the command being executed. -/
  port : Port
  /-- The model's own (log entry 1): the word of the command being executed. -/
  word : Command
  /-- The model's own (log entry 1): the events to come, oldest first, in the ONE global order of 20_memory.md R80. -/
  queue : List Event
  deriving DecidableEq, Repr

/-- The reset procedure (R430), with the model's own fields given. -/
def resetWith (cfg : Config.Params) (port : Port) (word : Command) (queue : List Event) : State where
  sys := resetSys
  resA := resetRes
  resC := resetRes
  eng := resetEngine
  rng := resetRng
  rbuf := resetRbuf
  io := resetIo
  left := resetChannel cfg .L
  right := resetChannel cfg .R
  port := port
  word := word
  queue := queue

/-- The machine right after reset, no command issued yet (R430, R431). -/
def State.reset : State := resetWith Config.chip .A 0 []

end Sys2Proof.Machine
end

