-- ==== Sys2Proof/Machine/Ops.lean ====
section
/-! DEFINITION. The operations every command shares: raising a fault and clearing the fault registers
(spec/60_exceptions.md R402, R411), the result registers (spec/10_state.md R21), port rights (R412), the unit a command
acts on (spec/30_encoding.md R104, R105, R110), reading and writing a unit instance, the block memories, and the debug
reads (spec/49_engine.md R385, R386). -/

namespace Sys2Proof.Machine

/-- The outcome of a command. -/
abbrev Out := Host.Outcome State Fault Refusal

/-! ## Faults -/

/-- `raise Fault(c)` (R402): the sticky bit, the code and the word; nothing else changes. -/
def State.raise (s : State) (c : FaultCause) : State :=
  { s with sys :=
      { status := s.sys.status ||| causeBit c, faultCode := causeCode c, faultCmd := s.word } }

/-- A command that raises `Fault(c)`: the command is complete, the machine goes on (R402). -/
def fail (c : FaultCause) (s : State) : Out := .next (s.raise c)

/-- The three fault registers cleared: the effect of `CLRF` (49_engine.md R382), the only way back besides reset (R411). -/
def State.clearFaults (s : State) : State := { s with sys := { status := 0, faultCode := 0, faultCmd := 0 } }

/-- `Fault(c)` unless the check holds (R110 (5)). -/
@[inline] def check (ok : Bool) (c : FaultCause) (s : State) (k : Out) : Out := if ok then k else fail c s

/-- `Fault(ILLPORT)` unless the command arrived on port `A` (R404, R412). -/
@[inline] def onPortA (s : State) (k : Out) : Out := if s.port = .A then k else fail .illPort s

/-! ## Result registers (R21) -/

/-- `RES[p]`. -/
def State.res (s : State) : Port → Word
  | .A => s.resA
  | .C => s.resC

/-- `RES[p] <- v` for the port of the present command. -/
def State.setRes (s : State) (v : Word) : State :=
  match s.port with
  | .A => { s with resA := v }
  | .C => { s with resC := v }

/-! ## Reset and the events to come -/

/-- The reset procedure (70_reset_and_hazards.md R430): everything but the model's own bookkeeping. -/
def State.doReset (s : State) : State := resetWith Config.chip s.port s.word s.queue

/-- The machine with the command word `w` of port `p` taken from the queue, `q` still to come (20_memory.md R80). -/
def State.accept (s : State) (p : Port) (w : Command) (q : List Event) : State :=
  { s with port := p, word := w, queue := q }

/-- The machine after the reset input was asserted, `q` still to come (R430). -/
def State.resetBy (s : State) (q : List Event) : State := ({ s with queue := q }).doReset

/-- The machine with a command word placed where the next step takes its command. -/
def State.issue (s : State) (p : Port) (w : Command) : State := { s with queue := .command p w :: s.queue }

/-! ## Unit instances (10_state.md R24) -/

/-- The channel of a side. -/
def State.chan (s : State) : Side → Channel
  | .L => s.left
  | .R => s.right

/-- The channel of a side replaced. -/
def State.setChan (s : State) (sd : Side) (c : Channel) : State :=
  match sd with
  | .L => { s with left := c }
  | .R => { s with right := c }

/-- Line `j` of a side. -/
def State.line (s : State) (sd : Side) (j : Fin 12) : DelayLine := (s.chan sd).line[j]

/-- Line `j` of a channel replaced. -/
def Channel.setLine (c : Channel) (j : Fin 12) (l : DelayLine) : Channel := { c with line := c.line.set j l }

/-- Line `j` of a side replaced. -/
def State.setLine (s : State) (sd : Side) (j : Fin 12) (l : DelayLine) : State :=
  s.setChan sd ((s.chan sd).setLine j l)

/-- An LP1 instance. -/
def State.lp1 (s : State) : Lp1Ref → OnePole
  | .chan sd => (s.chan sd).lp
  | .damp sd j => (s.line sd j).damp

/-- An LP1 instance replaced. -/
def State.setLp1 (s : State) (r : Lp1Ref) (f : OnePole) : State :=
  match r with
  | .chan sd => s.setChan sd { s.chan sd with lp := f }
  | .damp sd j => s.setLine sd j { s.line sd j with damp := f }

/-- An HP1 instance. -/
def State.hp1 (s : State) (sd : Side) : OnePole := (s.chan sd).hp

/-- An HP1 instance replaced. -/
def State.setHp1 (s : State) (sd : Side) (f : OnePole) : State := s.setChan sd { s.chan sd with hp := f }

/-- A SHELF instance: the kind selects `LS` or `HS`. -/
def State.shelf (s : State) (r : ShelfRef) : Shelf :=
  match r.kind with
  | .low => (s.line r.sd r.j).ls
  | .high => (s.line r.sd r.j).hs

/-- A SHELF instance replaced. -/
def State.setShelf (s : State) (r : ShelfRef) (f : Shelf) : State :=
  match r.kind with
  | .low => s.setLine r.sd r.j { s.line r.sd r.j with ls := f }
  | .high => s.setLine r.sd r.j { s.line r.sd r.j with hs := f }

/-- A DIFF instance. -/
def State.diff (s : State) : DiffRef → Diffuser
  | .early sd => (s.chan sd).ed
  | .line sd j => (s.line sd j).df

/-- A DIFF instance replaced. -/
def State.setDiff (s : State) (r : DiffRef) (d : Diffuser) : State :=
  match r with
  | .early sd => s.setChan sd { s.chan sd with ed := d }
  | .line sd j => s.setLine sd j { s.line sd j with df := d }

/-- A MAP instance: a stage of a diffuser. -/
def State.map (s : State) (r : MapRef) : Allpass := (s.diff r.diff).stage[r.k]

/-- Stage `k` of a diffuser replaced. -/
def Diffuser.setStage (d : Diffuser) (k : Fin 12) (f : Allpass) : Diffuser := { d with stage := d.stage.set k f }

/-- A MAP instance replaced. -/
def State.setMap (s : State) (r : MapRef) (f : Allpass) : State := s.setDiff r.diff ((s.diff r.diff).setStage r.k f)

/-- An MDLY instance. -/
def State.mdly (s : State) : MdlyRef → ModDelay
  | .pre sd => (s.chan sd).pre
  | .line sd j => (s.line sd j).delay

/-- An MDLY instance replaced. -/
def State.setMdly (s : State) (r : MdlyRef) (f : ModDelay) : State :=
  match r with
  | .pre sd => s.setChan sd { s.chan sd with pre := f }
  | .line sd j => s.setLine sd j { s.line sd j with delay := f }

/-- An MTAP instance. -/
def State.mtap (s : State) (sd : Side) : Multitap := (s.chan sd).mt

/-- An MTAP instance replaced. -/
def State.setMtap (s : State) (sd : Side) (f : Multitap) : State := s.setChan sd { s.chan sd with mt := f }

/-- `RNG0` replaced. -/
def State.setRng (s : State) (r : Rng) : State := { s with rng := r }

/-- `RBUF0` replaced. -/
def State.setRbuf (s : State) (b : Rbuf) : State := { s with rbuf := b }

/-- `ENG` replaced. -/
def State.setEng (s : State) (e : Engine) : State := { s with eng := e }

/-- One bank of `IO` replaced (10_state.md R36). -/
def State.setIo (s : State) (b : Fin 4) (m : Mem) : State := { s with io := s.io.set b m }

/-- The first `n` words of bank `b`: the input of a block command (R36). -/
def State.block (s : State) (b : Fin 4) (n : Nat) : List F := memReadList s.io[b] 0 n

/-- The output of a block command written from word 0 of bank `b`; the words above keep their value (R36). -/
def State.putBlock (s : State) (b : Fin 4) (out : List F) : State := s.setIo b (memWriteList s.io[b] 0 out)

/-! ## Commands of one class: port `A`, then a unit of the class (R105, R110 (3), (4), R412) -/

/-- A command on `RNG0`. -/
@[inline] def onRng (u : UnitAddr) (s : State) (k : Out) : Out :=
  onPortA s (match unitOf u with
    | some .rng => k
    | _ => fail .illUnit s)

/-- A command on `RBUF0`. -/
@[inline] def onRbuf (u : UnitAddr) (s : State) (k : Out) : Out :=
  onPortA s (match unitOf u with
    | some .rbuf => k
    | _ => fail .illUnit s)

/-- A command on an LP1 instance. -/
@[inline] def onLp1 (u : UnitAddr) (s : State) (k : Lp1Ref → Out) : Out :=
  onPortA s (match unitOf u with
    | some (.lp1 r) => k r
    | _ => fail .illUnit s)

/-- A command on an HP1 instance. -/
@[inline] def onHp1 (u : UnitAddr) (s : State) (k : Side → Out) : Out :=
  onPortA s (match unitOf u with
    | some (.hp1 sd) => k sd
    | _ => fail .illUnit s)

/-- A command on a SHELF instance. -/
@[inline] def onShelf (u : UnitAddr) (s : State) (k : ShelfRef → Out) : Out :=
  onPortA s (match unitOf u with
    | some (.shelf r) => k r
    | _ => fail .illUnit s)

/-- A command on a MAP instance. -/
@[inline] def onMap (u : UnitAddr) (s : State) (k : MapRef → Out) : Out :=
  onPortA s (match unitOf u with
    | some (.map r) => k r
    | _ => fail .illUnit s)

/-- A command on a DIFF instance. -/
@[inline] def onDiff (u : UnitAddr) (s : State) (k : DiffRef → Out) : Out :=
  onPortA s (match unitOf u with
    | some (.diff r) => k r
    | _ => fail .illUnit s)

/-- A command on an MDLY instance. -/
@[inline] def onMdly (u : UnitAddr) (s : State) (k : MdlyRef → Out) : Out :=
  onPortA s (match unitOf u with
    | some (.mdly r) => k r
    | _ => fail .illUnit s)

/-- A command on an MTAP instance. -/
@[inline] def onMtap (u : UnitAddr) (s : State) (k : Side → Out) : Out :=
  onPortA s (match unitOf u with
    | some (.mtap sd) => k sd
    | _ => fail .illUnit s)

/-- A command on a DLINE instance. -/
@[inline] def onLine (u : UnitAddr) (s : State) (k : Side → Fin 12 → Out) : Out :=
  onPortA s (match unitOf u with
    | some (.dline sd j) => k sd j
    | _ => fail .illUnit s)

/-- A command on a CHAN instance. -/
@[inline] def onChan (u : UnitAddr) (s : State) (k : Side → Out) : Out :=
  onPortA s (match unitOf u with
    | some (.chan sd) => k sd
    | _ => fail .illUnit s)

/-- A command on an IO instance. -/
@[inline] def onIo (u : UnitAddr) (s : State) (k : Fin 4 → Out) : Out :=
  onPortA s (match unitOf u with
    | some (.io b) => k b
    | _ => fail .illUnit s)

/-- A command on `FN`. -/
@[inline] def onFn (u : UnitAddr) (s : State) (k : Out) : Out :=
  onPortA s (match unitOf u with
    | some .fn => k
    | _ => fail .illUnit s)

/-- A command on `ENG` that either port may issue (R412). -/
@[inline] def onEngAny (u : UnitAddr) (s : State) (k : Out) : Out :=
  match unitOf u with
  | some .eng => k
  | _ => fail .illUnit s

/-- A command on `ENG` of port `A`. -/
@[inline] def onEng (u : UnitAddr) (s : State) (k : Out) : Out := onPortA s (onEngAny u s k)

/-! ## Debug reads (49_engine.md R385, R386; the register and memory numbers of 10_state.md R25 to R37) -/

/-- An integer register as 32 bits. -/
def intReg (n : Nat) : Word := BitVec.ofNat 32 n

/-- A bit or flag field in the low bits. -/
def bitsReg {n : Nat} (b : BitVec n) : Word := b.setWidth 32

/-- Registers of SYS (R37). -/
def sysReg (s : State) : Nat → Option Word
  | 0 => some s.sys.status
  | 1 => some s.sys.faultCode
  | 2 => some (s.sys.faultCmd.setWidth 32)
  | 3 => some (s.sys.faultCmd.extractLsb' 32 32)
  | 4 => some s.resA
  | 5 => some s.resC
  | _ => none

/-- Registers of ENG (R35). -/
def engReg (e : Engine) (n : Nat) : Option Word :=
  if h : n < 10 then some e.np[n] else if n = 10 then some (bitsReg (BitVec.ofBool e.dirty)) else none

/-- Registers of RNG (R25). -/
def rngReg (r : Rng) : Nat → Option Word
  | 0 => some r.xLo
  | 1 => some r.xHi
  | _ => none

/-- Registers of RBUF (R26). -/
def rbufReg (b : Rbuf) : Nat → Option Word
  | 0 => some b.seed
  | 1 => some b.xseed
  | 2 => some (intReg b.count)
  | _ => none

/-- Registers of LP1 and HP1 (R27). -/
def onePoleReg (f : OnePole) : Nat → Option Word
  | 0 => some f.fc
  | 1 => some f.b0
  | 2 => some f.a1
  | 3 => some f.z
  | _ => none

/-- The `KIND` bit of a shelf: 0 low, 1 high (R28). -/
def kindReg : Config.ShelfKind → Word
  | .low => 0
  | .high => 1

/-- Registers of SHELF (R28). -/
def shelfReg (k : Config.ShelfKind) (f : Shelf) : Nat → Option Word
  | 0 => some f.freq
  | 1 => some f.gain
  | 2 => some f.coeffs.b0
  | 3 => some f.coeffs.b1
  | 4 => some f.coeffs.b2
  | 5 => some f.coeffs.a1
  | 6 => some f.coeffs.a2
  | 7 => some f.x1
  | 8 => some f.x2
  | 9 => some f.y1
  | 10 => some f.y2
  | 11 => some (kindReg k)
  | _ => none

/-- Registers of MDLY (R31): "those of MAP with 1 and 4 absent". -/
def mdlyReg (u : ModDelay) : Nat → Option Word
  | 0 => some (intReg u.dly)
  | 2 => some u.modA
  | 3 => some u.modR
  | 5 => some u.phase
  | 6 => some (intReg u.cnt)
  | 7 => some (intReg u.taps.delayA)
  | 8 => some (intReg u.taps.delayB)
  | 9 => some u.taps.gainA
  | 10 => some u.taps.gainB
  | 11 => some (intReg u.widx)
  | _ => none

/-- Registers of MAP (R29). -/
def mapReg (u : Allpass) (n : Nat) : Option Word :=
  match n with
  | 1 => some u.fb
  | 4 => some (bitsReg u.flags)
  | _ => mdlyReg u.core n

/-- Registers of DIFF (R30). -/
def diffReg (d : Diffuser) : Nat → Option Word
  | 0 => some (intReg d.stages)
  | 1 => some (intReg d.dly)
  | 2 => some d.fb
  | 3 => some d.modA
  | 4 => some d.modR
  | 5 => some d.seed
  | 6 => some d.xseed
  | 7 => some (bitsReg d.flags)
  | _ => none

/-- Registers of MTAP (R32). -/
def mtapReg (u : Multitap) : Nat → Option Word
  | 0 => some (intReg u.taps)
  | 1 => some (intReg u.len)
  | 2 => some u.decay
  | 3 => some u.seed
  | 4 => some u.xseed
  | 5 => some (intReg u.widx)
  | _ => none

/-- Registers of DLINE (R33). -/
def lineReg (l : DelayLine) : Nat → Option Word
  | 0 => some l.fb
  | 1 => some (bitsReg l.flags)
  | 2 => some (intReg l.qRd)
  | 3 => some (intReg l.qWr)
  | 4 => some (intReg l.qCount)
  | _ => none

/-- Registers of CHAN (R34). -/
def chanReg (c : Channel) : Nat → Option Word
  | 0 => some c.inMix
  | 1 => some (bitsReg c.flags)
  | 2 => some (intReg c.lines)
  | 3 => some c.decayT
  | 4 => some c.dry
  | 5 => some c.early
  | 6 => some c.lineOut
  | 7 => some c.xseed
  | _ => none

/-- Whether the class of a unit has registers: every class but FN and IO (R385). -/
def hasRegs : UnitRef → Bool
  | .fn => false
  | .io _ => false
  | _ => true

/-- Register `n` of a unit as 32 bits, none if it is no register number of its class (R385). -/
def readReg (s : State) (r : UnitRef) (n : Nat) : Option Word :=
  match r with
  | .sys => sysReg s n
  | .eng => engReg s.eng n
  | .rng => rngReg s.rng n
  | .rbuf => rbufReg s.rbuf n
  | .fn => none
  | .io _ => none
  | .chan sd => chanReg (s.chan sd) n
  | .hp1 sd => onePoleReg (s.hp1 sd) n
  | .lp1 r => onePoleReg (s.lp1 r) n
  | .shelf r => shelfReg r.kind (s.shelf r) n
  | .map r => mapReg (s.map r) n
  | .diff r => diffReg (s.diff r) n
  | .mdly r => mdlyReg (s.mdly r) n
  | .mtap sd => mtapReg (s.mtap sd) n
  | .dline sd j => lineReg (s.line sd j) n

/-- The classes with a memory: RBUF, MAP, DIFF, MDLY, MTAP, DLINE, IO (30_encoding.md R106). -/
def hasMems : UnitRef → Bool
  | .rbuf => true
  | .map _ => true
  | .diff _ => true
  | .mdly _ => true
  | .mtap _ => true
  | .dline _ _ => true
  | .io _ => true
  | _ => false

/-- The one memory of a class, of number `k`, with its size in words. -/
def onlyMem (k m : Nat) (mem : Mem) (size : Nat) : Option (Mem × Nat) := if m = k then some (mem, size) else none

/-- The memories of MTAP (R32). -/
def mtapMem (u : Multitap) : Nat → Option (Mem × Nat)
  | 0 => some (u.buf, Config.dlCap)
  | 1 => some (u.seedV, 3 * Config.maxTaps)
  | 2 => some (u.tapGain, Config.maxTaps)
  | 3 => some (u.tapPos, Config.maxTaps)
  | _ => none

/-- Memory `m` of a unit with its size in words, none if it is no memory number of its class (R386, 20_memory.md R70). -/
def unitMem (s : State) (r : UnitRef) (m : Nat) : Option (Mem × Nat) :=
  match r with
  | .rbuf => onlyMem 0 m s.rbuf.val Config.rbCap
  | .map r => onlyMem 0 m (s.map r).core.buf Config.apCap
  | .diff r => onlyMem 1 m (s.diff r).seedV Config.diffDraws
  | .mdly r => onlyMem 0 m (s.mdly r).buf Config.dlCap
  | .mtap sd => mtapMem (s.mtap sd) m
  | .dline sd j => onlyMem 0 m (s.line sd j).q Config.fbqCap
  | .io b => onlyMem 0 m s.io[b] Config.block
  | _ => none

/-- Word `i` of memory `m` of a unit, none for a number or index out of range (R386). -/
def readMem (s : State) (r : UnitRef) (m i : Nat) : Option Word :=
  match unitMem s r m with
  | some (mem, size) => if i < size then some (memRead mem i) else none
  | none => none

/-- `RES[p]` gets the word read, or `Fault(IDXERR)` (R385, R386, R407). -/
def putRead (s : State) (v : Option Word) : Out :=
  match v with
  | some w => .next (s.setRes w)
  | none => fail .idxErr s

/-- `RDREG`'s unit: an instance of a class with registers, on either port (49_engine.md R385, R412). -/
@[inline] def onRegs (u : UnitAddr) (s : State) (k : UnitRef → Out) : Out :=
  match unitOf u with
  | some r => if hasRegs r then k r else fail .illUnit s
  | none => fail .illUnit s

/-- `RDMEM`'s unit: an instance of a class with a memory, on port `A` (49_engine.md R386, R412). -/
@[inline] def onMems (u : UnitAddr) (s : State) (k : UnitRef → Out) : Out :=
  onPortA s (match unitOf u with
    | some r => if hasMems r then k r else fail .illUnit s
    | none => fail .illUnit s)

/-! ## Block commands -/

/-- One delay line over the first `n` words of `IO0`, its output into `IO2` (47_delayline.md R297). -/
def State.procLine (s : State) (sd : Side) (j : Fin 12) (n : Nat) : State :=
  let r := dlineProc Config.chip (s.line sd j) (s.block 0 n)
  (s.setLine sd j r.2).putBlock 2 r.1

/-- One channel over the first `n` words of `IO0`, its output into `IO2` (48_channel.md R327). -/
def State.procChan (s : State) (sd : Side) (n : Nat) : State :=
  let r := chanProc Config.chip (s.chan sd) (s.block 0 n)
  (s.setChan sd r.2).putBlock 2 r.1

/-- `ENG_sync()`, the re-derivation pass (49_engine.md R353). -/
def State.engSync (s : State) : State :=
  if s.eng.dirty then
    { s with
      eng := { s.eng with dirty := false }
      left := applyConfig Config.chip s.left (deriveConfig Config.chip s.eng.np Config.defaultInputMix .L)
      right := applyConfig Config.chip s.right (deriveConfig Config.chip s.eng.np Config.defaultInputMix .R) }
  else s

/-- Both channels over the first `n` frames, mixed with `NP[4]` (49_engine.md R355, R356). -/
def State.procFrames (s : State) (n : Nat) : State :=
  let xl := s.block 0 n
  let xr := s.block 1 n
  let l := chanProc Config.chip s.left xl
  let r := chanProc Config.chip s.right xr
  let m := s.eng.param 4
  (({ s with left := l.2, right := r.2 }).putBlock 2 (List.zipWith (mixLaw m) xl l.1)).putBlock 3
    (List.zipWith (mixLaw m) xr r.1)

/-- Both channels cleared: the effect of `EN.CLR` (49_engine.md R359). -/
def State.clearChannels (s : State) : State := { s with left := s.left.clear, right := s.right.clear }

end Sys2Proof.Machine
end

