-- ==== Sys2Proof/Machine/AllpassCommands.lean ====
section
/-! DEFINITION. The commands of the modulated all-pass (spec/43_allpass.md). -/

namespace Sys2Proof.Machine

/-- `AP.SETDLY` (43_allpass.md R199). -/
def execApSetDly (u : UnitAddr) (n : Word) (s : State) : Out :=
  onMap u s fun r =>
    check (delayOk Config.apCap n.toNat) .cfgErr s (.next (s.setMap r ((s.map r).setDly Config.chip n.toNat)))

/-- `AP.SETFB` (43_allpass.md R200). -/
def execApSetFb (u : UnitAddr) (g : Word) (s : State) : Out :=
  onMap u s fun r =>
    check (isFinite g) .cfgErr s (.next (s.setMap r ((s.map r).setFb g)))

/-- `AP.SETMODA` (43_allpass.md R201). -/
def execApSetModA (u : UnitAddr) (a : Word) (s : State) : Out :=
  onMap u s fun r =>
    check (modAOk Config.apCap a) .cfgErr s (.next (s.setMap r ((s.map r).setModA Config.chip a)))

/-- `AP.SETMODR` (43_allpass.md R202). -/
def execApSetModR (u : UnitAddr) (f : Word) (s : State) : Out :=
  onMap u s fun r =>
    check (modROk f) .cfgErr s (.next (s.setMap r ((s.map r).setModR f)))

/-- `AP.SETINTERP` (43_allpass.md R203). -/
def execApSetInterp (u : UnitAddr) (b : Word) (s : State) : Out :=
  onMap u s fun r =>
    check (boolOk b) .cfgErr s (.next (s.setMap r ((s.map r).setInterp (boolOf b))))

/-- `AP.SETMODEN` (43_allpass.md R204). -/
def execApSetModEn (u : UnitAddr) (b : Word) (s : State) : Out :=
  onMap u s fun r =>
    check (boolOk b) .cfgErr s (.next (s.setMap r ((s.map r).setModEn (boolOf b))))

/-- `AP.STEP` (43_allpass.md R205). -/
def execApStep (u : UnitAddr) (v : Word) (s : State) : Out :=
  onMap u s fun r =>
    .next ((s.setMap r (mapStep Config.chip (s.map r) v).2).setRes (mapStep Config.chip (s.map r) v).1)

/-- `AP.CLR` (43_allpass.md R206). -/
def execApClr (u : UnitAddr) (s : State) : Out := onMap u s fun r => .next (s.setMap r (s.map r).clear)

end Sys2Proof.Machine
end

