-- ==== Sys2Proof/Machine/ChannelCommands.lean ====
section
/-! DEFINITION. The commands of the channel (spec/48_channel.md). -/

namespace Sys2Proof.Machine

/-- `CH.SETINMIX` (48_channel.md R319). -/
def execChSetInMix (u : UnitAddr) (g : Word) (s : State) : Out :=
  onChan u s fun sd =>
    check (isFinite g) .cfgErr s (.next (s.setChan sd ((s.chan sd).setInMix g)))

/-- `CH.SETFLAGS` (48_channel.md R320). -/
def execChSetFlags (u : UnitAddr) (f : Word) (s : State) : Out :=
  onChan u s fun sd =>
    check (maskOk 4 f) .cfgErr s (.next (s.setChan sd ((s.chan sd).setFlags (f.setWidth 4))))

/-- `CH.SETLINES` (48_channel.md R321). -/
def execChSetLines (u : UnitAddr) (n : Word) (s : State) : Out :=
  onChan u s fun sd =>
    check (linesOk n.toNat) .cfgErr s (.next (s.setChan sd ((s.chan sd).setLines n.toNat)))

/-- `CH.SETDECAY` (48_channel.md R322). -/
def execChSetDecay (u : UnitAddr) (t : Word) (s : State) : Out :=
  onChan u s fun sd =>
    check (decayTOk t) .cfgErr s (.next (s.setChan sd ((s.chan sd).setDecay Config.chip t)))

/-- `CH.SETDRY` (48_channel.md R323). -/
def execChSetDry (u : UnitAddr) (g : Word) (s : State) : Out :=
  onChan u s fun sd =>
    check (isFinite g) .cfgErr s (.next (s.setChan sd ((s.chan sd).setDry g)))

/-- `CH.SETEARLY` (48_channel.md R324). -/
def execChSetEarly (u : UnitAddr) (g : Word) (s : State) : Out :=
  onChan u s fun sd =>
    check (isFinite g) .cfgErr s (.next (s.setChan sd ((s.chan sd).setEarly g)))

/-- `CH.SETLINEOUT` (48_channel.md R325). -/
def execChSetLineOut (u : UnitAddr) (g : Word) (s : State) : Out :=
  onChan u s fun sd =>
    check (isFinite g) .cfgErr s (.next (s.setChan sd ((s.chan sd).setLineOut g)))

/-- `CH.SETX` (48_channel.md R326). -/
def execChSetX (u : UnitAddr) (c : Word) (s : State) : Out :=
  onChan u s fun sd =>
    check (inUnit c) .cfgErr s (.next (s.setChan sd ((s.chan sd).setX Config.chip c)))

/-- `CH.PROC` (48_channel.md R327). -/
def execChProc (u : UnitAddr) (n : Word) (s : State) : Out :=
  onChan u s fun sd => check (blockOk n.toNat) .cfgErr s (.next (s.procChan sd n.toNat))

/-- `CH.CLR` (48_channel.md R328). -/
def execChClr (u : UnitAddr) (s : State) : Out := onChan u s fun sd => .next (s.setChan sd (s.chan sd).clear)

end Sys2Proof.Machine
end

