-- ==== Sys2Proof/Machine/DiffuserCommands.lean ====
section
/-! DEFINITION. The commands of the all-pass diffuser (spec/44_diffuser.md). -/

namespace Sys2Proof.Machine

/-- `DF.SETSTAGES` (44_diffuser.md R224). -/
def execDfSetStages (u : UnitAddr) (n : Word) (s : State) : Out :=
  onDiff u s fun r =>
    check (stagesOk n.toNat) .cfgErr s (.next (s.setDiff r ((s.diff r).setStages n.toNat)))

/-- `DF.SETDLY` (44_diffuser.md R225). -/
def execDfSetDly (u : UnitAddr) (n : Word) (s : State) : Out :=
  onDiff u s fun r =>
    check (delayOk Config.apCap n.toNat) .cfgErr s (.next (s.setDiff r ((s.diff r).setDly Config.chip n.toNat)))

/-- `DF.SETFB` (44_diffuser.md R226). -/
def execDfSetFb (u : UnitAddr) (g : Word) (s : State) : Out :=
  onDiff u s fun r =>
    check (isFinite g) .cfgErr s (.next (s.setDiff r ((s.diff r).setFb g)))

/-- `DF.SETMODA` (44_diffuser.md R227). -/
def execDfSetModA (u : UnitAddr) (a : Word) (s : State) : Out :=
  onDiff u s fun r =>
    check (modAOk (Config.apCap / 2) a) .cfgErr s (.next (s.setDiff r ((s.diff r).setModA Config.chip a)))

/-- `DF.SETMODR` (44_diffuser.md R228). -/
def execDfSetModR (u : UnitAddr) (f : Word) (s : State) : Out :=
  onDiff u s fun r =>
    check (diffModROk f) .cfgErr s (.next (s.setDiff r ((s.diff r).setModR Config.chip f)))

/-- `DF.SETSEED` (44_diffuser.md R229). -/
def execDfSetSeed (u : UnitAddr) (seed : Word) (s : State) : Out :=
  onDiff u s fun r => .next (s.setDiff r ((s.diff r).setSeed Config.chip seed))

/-- `DF.SETX` (44_diffuser.md R230). -/
def execDfSetX (u : UnitAddr) (c : Word) (s : State) : Out :=
  onDiff u s fun r =>
    check (inUnit c) .cfgErr s (.next (s.setDiff r ((s.diff r).setX Config.chip c)))

/-- `DF.SETINTERP` (44_diffuser.md R231). -/
def execDfSetInterp (u : UnitAddr) (b : Word) (s : State) : Out :=
  onDiff u s fun r =>
    check (boolOk b) .cfgErr s (.next (s.setDiff r ((s.diff r).setInterp (boolOf b))))

/-- `DF.SETMODEN` (44_diffuser.md R232). -/
def execDfSetModEn (u : UnitAddr) (b : Word) (s : State) : Out :=
  onDiff u s fun r =>
    check (boolOk b) .cfgErr s (.next (s.setDiff r ((s.diff r).setModEn (boolOf b))))

/-- `DF.STEP` (44_diffuser.md R233). -/
def execDfStep (u : UnitAddr) (v : Word) (s : State) : Out :=
  onDiff u s fun r =>
    .next ((s.setDiff r (diffStep Config.chip (s.diff r) v).2).setRes (diffStep Config.chip (s.diff r) v).1)

/-- `DF.CLR` (44_diffuser.md R234). -/
def execDfClr (u : UnitAddr) (s : State) : Out := onDiff u s fun r => .next (s.setDiff r (s.diff r).clear)

end Sys2Proof.Machine
end

