-- ==== Sys2Proof/Machine/EngineCommands.lean ====
section
/-! DEFINITION. The commands of the engine and of the function unit (spec/49_engine.md). -/

namespace Sys2Proof.Machine

/-- `EN.SETP` (49_engine.md R351: either port). -/
def execEnSetP (u : UnitAddr) (sub : SubField) (v : Word) (s : State) : Out :=
  onEngAny u s (check (keyOk sub) .keyErr s (.next (s.setEng (s.eng.setParam sub.toNat v))))

/-- `EN.GETP` (49_engine.md R352: either port). -/
def execEnGetP (u : UnitAddr) (sub : SubField) (s : State) : Out :=
  onEngAny u s (check (keyOk sub) .keyErr s (.next (s.setRes (s.eng.param sub.toNat))))

/-- `EN.PROC` (49_engine.md R355). -/
def execEnProc (u : UnitAddr) (n : Word) (s : State) : Out :=
  onEng u s (check (blockOk n.toNat) .cfgErr s (.next (s.engSync.procFrames n.toNat)))

/-- `EN.CLR` (49_engine.md R359). -/
def execEnClr (u : UnitAddr) (s : State) : Out := onEng u s (.next s.clearChannels)

/-- `EN.SYNC` (49_engine.md R354). -/
def execEnSync (u : UnitAddr) (s : State) : Out := onEng u s (.next s.engSync)

/-- `FN.R2D` (49_engine.md R344). -/
def execFnR2d (u : UnitAddr) (x : Word) (s : State) : Out := onFn u s (.next (s.setRes (resp2dec Config.chip x)))

/-- `FN.R3D` (49_engine.md R345). -/
def execFnR3d (u : UnitAddr) (x : Word) (s : State) : Out := onFn u s (.next (s.setRes (resp3dec Config.chip x)))

/-- `FN.R4O` (49_engine.md R346). -/
def execFnR4o (u : UnitAddr) (x : Word) (s : State) : Out := onFn u s (.next (s.setRes (resp4oct Config.chip x)))

/-- `FN.DB2LIN` (49_engine.md R347). -/
def execFnDb2Lin (u : UnitAddr) (x : Word) (s : State) : Out := onFn u s (.next (s.setRes (db2lin Config.chip x)))

end Sys2Proof.Machine
end

