-- ==== Sys2Proof/Machine/LineCommands.lean ====
section
/-! DEFINITION. The commands of the delay line (spec/47_delayline.md). -/

namespace Sys2Proof.Machine

/-- `DL.SETFB` (47_delayline.md R294). -/
def execDlSetFb (u : UnitAddr) (g : Word) (s : State) : Out :=
  onLine u s fun sd j =>
    check (isFinite g) .cfgErr s (.next (s.setLine sd j ((s.line sd j).setFb g)))

/-- `DL.SETFLAGS` (47_delayline.md R295). -/
def execDlSetFlags (u : UnitAddr) (f : Word) (s : State) : Out :=
  onLine u s fun sd j =>
    check (maskOk 5 f) .cfgErr s (.next (s.setLine sd j ((s.line sd j).setFlags (f.setWidth 5))))

/-- `DL.PROC` (47_delayline.md R297). -/
def execDlProc (u : UnitAddr) (n : Word) (s : State) : Out :=
  onLine u s fun sd j => check (blockOk n.toNat) .cfgErr s (.next (s.procLine sd j n.toNat))

/-- `DL.CLR` (47_delayline.md R298). -/
def execDlClr (u : UnitAddr) (s : State) : Out := onLine u s fun sd j => .next (s.setLine sd j ((s.line sd j).clear))

end Sys2Proof.Machine
end

