-- ==== Sys2Proof/Machine/ModDelayCommands.lean ====
section
/-! DEFINITION. The commands of the modulated delay (spec/45_moddelay.md). -/

namespace Sys2Proof.Machine

/-- `MD.SETDLY` (45_moddelay.md R252). -/
def execMdSetDly (u : UnitAddr) (n : Word) (s : State) : Out :=
  onMdly u s fun r =>
    check (delayOk Config.dlCap n.toNat) .cfgErr s (.next (s.setMdly r ((s.mdly r).setDly Config.chip n.toNat)))

/-- `MD.SETMODA` (45_moddelay.md R253). -/
def execMdSetModA (u : UnitAddr) (a : Word) (s : State) : Out :=
  onMdly u s fun r =>
    check (modAOk Config.dlCap a) .cfgErr s (.next (s.setMdly r ((s.mdly r).setModA Config.chip a)))

/-- `MD.SETMODR` (45_moddelay.md R254). -/
def execMdSetModR (u : UnitAddr) (f : Word) (s : State) : Out :=
  onMdly u s fun r =>
    check (modROk f) .cfgErr s (.next (s.setMdly r ((s.mdly r).setModR f)))

/-- `MD.STEP` (45_moddelay.md R255). -/
def execMdStep (u : UnitAddr) (v : Word) (s : State) : Out :=
  onMdly u s fun r =>
    .next ((s.setMdly r (mdlyStep Config.chip (s.mdly r) v).2).setRes (mdlyStep Config.chip (s.mdly r) v).1)

/-- `MD.CLR` (45_moddelay.md R256). -/
def execMdClr (u : UnitAddr) (s : State) : Out :=
  onMdly u s fun r => .next (s.setMdly r ((s.mdly r).clear Config.dlCap))

end Sys2Proof.Machine
end

