-- ==== Sys2Proof/Machine/MultitapCommands.lean ====
section
/-! DEFINITION. The commands of the multitap delay (spec/46_multitap.md). -/

namespace Sys2Proof.Machine

/-- `MT.SETTAPS` (46_multitap.md R274). -/
def execMtSetTaps (u : UnitAddr) (n : Word) (s : State) : Out :=
  onMtap u s fun sd =>
    check (tapsOk n.toNat) .cfgErr s (.next (s.setMtap sd ((s.mtap sd).setTaps n.toNat)))

/-- `MT.SETLEN` (46_multitap.md R275). -/
def execMtSetLen (u : UnitAddr) (n : Word) (s : State) : Out :=
  onMtap u s fun sd =>
    check (lenOk n.toNat) .cfgErr s (.next (s.setMtap sd ((s.mtap sd).setLen n.toNat)))

/-- `MT.SETDECAY` (46_multitap.md R276). -/
def execMtSetDecay (u : UnitAddr) (d : Word) (s : State) : Out :=
  onMtap u s fun sd =>
    check (inUnit d) .cfgErr s (.next (s.setMtap sd ((s.mtap sd).setDecay d)))

/-- `MT.SETSEED` (46_multitap.md R277). -/
def execMtSetSeed (u : UnitAddr) (seed : Word) (s : State) : Out :=
  onMtap u s fun sd => .next (s.setMtap sd ((s.mtap sd).setSeed Config.chip seed))

/-- `MT.SETX` (46_multitap.md R278). -/
def execMtSetX (u : UnitAddr) (c : Word) (s : State) : Out :=
  onMtap u s fun sd =>
    check (inUnit c) .cfgErr s (.next (s.setMtap sd ((s.mtap sd).setX Config.chip c)))

/-- `MT.STEP` (46_multitap.md R279). -/
def execMtStep (u : UnitAddr) (v : Word) (s : State) : Out :=
  onMtap u s fun sd =>
    .next ((s.setMtap sd (mtapStep Config.chip (s.mtap sd) v).2).setRes (mtapStep Config.chip (s.mtap sd) v).1)

/-- `MT.CLR` (46_multitap.md R280). -/
def execMtClr (u : UnitAddr) (s : State) : Out := onMtap u s fun sd => .next (s.setMtap sd (s.mtap sd).clear)

end Sys2Proof.Machine
end

