-- ==== Sys2Proof/Machine/OnePole.lean ====
section
/-! DEFINITION. The commands of the one-pole filters (spec/41_onepole.md): `LP.*` on LP1 and `HP.*` on HP1 instances. -/

namespace Sys2Proof.Machine

/-- `LP.SETFC` (41_onepole.md R152). -/
def execLpSetFc (u : UnitAddr) (f : Word) (s : State) : Out :=
  onLp1 u s fun r =>
    check (isFinite f) .cfgErr s (.next (s.setLp1 r ((s.lp1 r).setFc Config.chip f)))

/-- `LP.STEP` (41_onepole.md R153). -/
def execLpStep (u : UnitAddr) (v : Word) (s : State) : Out :=
  onLp1 u s fun r =>
    .next ((s.setLp1 r (lp1Step Config.chip (s.lp1 r) v).2).setRes (lp1Step Config.chip (s.lp1 r) v).1)

/-- `LP.CLR` (41_onepole.md R154). -/
def execLpClr (u : UnitAddr) (s : State) : Out := onLp1 u s fun r => .next (s.setLp1 r (s.lp1 r).clear)

/-- `HP.SETFC` (41_onepole.md R155). -/
def execHpSetFc (u : UnitAddr) (f : Word) (s : State) : Out :=
  onHp1 u s fun sd =>
    check (isFinite f) .cfgErr s (.next (s.setHp1 sd ((s.hp1 sd).setFc Config.chip f)))

/-- `HP.STEP` (41_onepole.md R156). -/
def execHpStep (u : UnitAddr) (v : Word) (s : State) : Out :=
  onHp1 u s fun sd =>
    .next ((s.setHp1 sd (hp1Step Config.chip (s.hp1 sd) v).2).setRes (hp1Step Config.chip (s.hp1 sd) v).1)

/-- `HP.CLR` (41_onepole.md R157). -/
def execHpClr (u : UnitAddr) (s : State) : Out := onHp1 u s fun sd => .next (s.setHp1 sd (s.hp1 sd).clear)

end Sys2Proof.Machine
end

