-- ==== Sys2Proof/Machine/Random.lean ====
section
/-! DEFINITION. The commands of the generator and of the random buffer (spec/40_rng.md). -/

namespace Sys2Proof.Machine

/-- `RNG.SEED` (40_rng.md R136). -/
def execRngSeed (u : UnitAddr) (seed : Word) (s : State) : Out := onRng u s (.next (s.setRng (s.rng.setSeed seed)))

/-- `RNG.NEXT` (40_rng.md R137). -/
def execRngNext (u : UnitAddr) (s : State) : Out :=
  onRng u s (.next ((s.setRng (s.rng.next Config.chip).2).setRes (s.rng.next Config.chip).1))

/-- `RB.SETSEED` (40_rng.md R138). -/
def execRbSetSeed (u : UnitAddr) (seed : Word) (s : State) : Out :=
  onRbuf u s (.next (s.setRbuf (s.rbuf.setSeed seed)))

/-- `RB.SETX` (40_rng.md R139). -/
def execRbSetX (u : UnitAddr) (c : Word) (s : State) : Out :=
  onRbuf u s (check (inUnit c) .cfgErr s (.next (s.setRbuf (s.rbuf.setX c))))

/-- `RB.GEN` (40_rng.md R140). -/
def execRbGen (u : UnitAddr) (n : Word) (s : State) : Out :=
  onRbuf u s (check (countOk n.toNat) .cfgErr s (.next (s.setRbuf (s.rbuf.gen Config.chip n.toNat))))

/-- `RB.GENX` (40_rng.md R141). -/
def execRbGenX (u : UnitAddr) (n : Word) (s : State) : Out :=
  onRbuf u s (check (countOk n.toNat) .cfgErr s (.next (s.setRbuf (s.rbuf.genX Config.chip n.toNat))))

end Sys2Proof.Machine
end

