-- ==== Sys2Proof/Machine/ShelfCommands.lean ====
section
/-! DEFINITION. The commands of the shelf filter (spec/42_shelf.md). -/

namespace Sys2Proof.Machine

/-- `SH.SETF` (42_shelf.md R175). -/
def execShSetF (u : UnitAddr) (f : Word) (s : State) : Out :=
  onShelf u s fun r =>
    check (isFinite f) .cfgErr s (.next (s.setShelf r ((s.shelf r).setF Config.chip r.kind f)))

/-- `SH.SETG` (42_shelf.md R176). -/
def execShSetG (u : UnitAddr) (g : Word) (s : State) : Out :=
  onShelf u s fun r =>
    check (!isNaN g) .cfgErr s (.next (s.setShelf r ((s.shelf r).setG Config.chip r.kind g)))

/-- `SH.STEP` (42_shelf.md R177). -/
def execShStep (u : UnitAddr) (v : Word) (s : State) : Out :=
  onShelf u s fun r =>
    .next ((s.setShelf r (shelfStep (s.shelf r) v).2).setRes (shelfStep (s.shelf r) v).1)

/-- `SH.CLR` (42_shelf.md R178). -/
def execShClr (u : UnitAddr) (s : State) : Out := onShelf u s fun r => .next (s.setShelf r (s.shelf r).clear)

end Sys2Proof.Machine
end

