-- ==== Sys2Proof/Machine/System.lean ====
section
/-! DEFINITION. The system commands (spec/49_engine.md section 6): no-operation, reset, fault clear, block sample memories
and debug reads. -/

namespace Sys2Proof.Machine

/-- `NOP` (49_engine.md R380: nothing changes, on either port). -/
def execNop (s : State) : Out := .next s

/-- `RESET` (49_engine.md R381). -/
def execReset (s : State) : Out := onPortA s (.next s.doReset)

/-- `RDREG` (49_engine.md R385). -/
def execRdreg (u : UnitAddr) (sub : SubField) (s : State) : Out :=
  onRegs u s fun r => putRead s (readReg s r sub.toNat)

/-- `RDMEM` (49_engine.md R386). -/
def execRdmem (u : UnitAddr) (sub : SubField) (i : Word) (s : State) : Out :=
  onMems u s fun r => putRead s (readMem s r sub.toNat i.toNat)

/-- `CLRF` (49_engine.md R382). -/
def execClrf (s : State) : Out := onPortA s (.next s.clearFaults)

/-- `IO.WR` (49_engine.md R383). -/
def execIoWr (u : UnitAddr) (sub : SubField) (v : Word) (s : State) : Out :=
  onIo u s fun b =>
    check (indexOk sub) .idxErr s (.next (s.setIo b (memWrite s.io[b] sub.toNat v)))

/-- `IO.RD` (49_engine.md R384). -/
def execIoRd (u : UnitAddr) (sub : SubField) (s : State) : Out :=
  onIo u s fun b =>
    check (indexOk sub) .idxErr s (.next (s.setRes (memRead s.io[b] sub.toNat)))

end Sys2Proof.Machine
end

