-- ==== Sys2Proof/Machine/Dispatch.lean ====
section
/-! DEFINITION. The dispatch: one arm per command, each one call of its meaning. -/

namespace Sys2Proof.Machine

def exec (i : Instr) (s : State) : Host.Outcome State Fault Refusal :=
  match i with
  | .nop => Sys2Proof.Machine.execNop s
  | .reset => Sys2Proof.Machine.execReset s
  | .rdreg u sub => Sys2Proof.Machine.execRdreg u sub s
  | .rdmem u sub imm => Sys2Proof.Machine.execRdmem u sub imm s
  | .clrf => Sys2Proof.Machine.execClrf s
  | .ioWr u sub imm => Sys2Proof.Machine.execIoWr u sub imm s
  | .ioRd u sub => Sys2Proof.Machine.execIoRd u sub s
  | .rngSeed u imm => Sys2Proof.Machine.execRngSeed u imm s
  | .rngNext u => Sys2Proof.Machine.execRngNext u s
  | .rbSetSeed u imm => Sys2Proof.Machine.execRbSetSeed u imm s
  | .rbSetX u imm => Sys2Proof.Machine.execRbSetX u imm s
  | .rbGen u imm => Sys2Proof.Machine.execRbGen u imm s
  | .rbGenX u imm => Sys2Proof.Machine.execRbGenX u imm s
  | .lpSetFc u imm => Sys2Proof.Machine.execLpSetFc u imm s
  | .lpStep u imm => Sys2Proof.Machine.execLpStep u imm s
  | .lpClr u => Sys2Proof.Machine.execLpClr u s
  | .hpSetFc u imm => Sys2Proof.Machine.execHpSetFc u imm s
  | .hpStep u imm => Sys2Proof.Machine.execHpStep u imm s
  | .hpClr u => Sys2Proof.Machine.execHpClr u s
  | .shSetF u imm => Sys2Proof.Machine.execShSetF u imm s
  | .shSetG u imm => Sys2Proof.Machine.execShSetG u imm s
  | .shStep u imm => Sys2Proof.Machine.execShStep u imm s
  | .shClr u => Sys2Proof.Machine.execShClr u s
  | .apSetDly u imm => Sys2Proof.Machine.execApSetDly u imm s
  | .apSetFb u imm => Sys2Proof.Machine.execApSetFb u imm s
  | .apSetModA u imm => Sys2Proof.Machine.execApSetModA u imm s
  | .apSetModR u imm => Sys2Proof.Machine.execApSetModR u imm s
  | .apSetInterp u imm => Sys2Proof.Machine.execApSetInterp u imm s
  | .apSetModEn u imm => Sys2Proof.Machine.execApSetModEn u imm s
  | .apStep u imm => Sys2Proof.Machine.execApStep u imm s
  | .apClr u => Sys2Proof.Machine.execApClr u s
  | .dfSetStages u imm => Sys2Proof.Machine.execDfSetStages u imm s
  | .dfSetDly u imm => Sys2Proof.Machine.execDfSetDly u imm s
  | .dfSetFb u imm => Sys2Proof.Machine.execDfSetFb u imm s
  | .dfSetModA u imm => Sys2Proof.Machine.execDfSetModA u imm s
  | .dfSetModR u imm => Sys2Proof.Machine.execDfSetModR u imm s
  | .dfSetSeed u imm => Sys2Proof.Machine.execDfSetSeed u imm s
  | .dfSetX u imm => Sys2Proof.Machine.execDfSetX u imm s
  | .dfSetInterp u imm => Sys2Proof.Machine.execDfSetInterp u imm s
  | .dfSetModEn u imm => Sys2Proof.Machine.execDfSetModEn u imm s
  | .dfStep u imm => Sys2Proof.Machine.execDfStep u imm s
  | .dfClr u => Sys2Proof.Machine.execDfClr u s
  | .mdSetDly u imm => Sys2Proof.Machine.execMdSetDly u imm s
  | .mdSetModA u imm => Sys2Proof.Machine.execMdSetModA u imm s
  | .mdSetModR u imm => Sys2Proof.Machine.execMdSetModR u imm s
  | .mdStep u imm => Sys2Proof.Machine.execMdStep u imm s
  | .mdClr u => Sys2Proof.Machine.execMdClr u s
  | .mtSetTaps u imm => Sys2Proof.Machine.execMtSetTaps u imm s
  | .mtSetLen u imm => Sys2Proof.Machine.execMtSetLen u imm s
  | .mtSetDecay u imm => Sys2Proof.Machine.execMtSetDecay u imm s
  | .mtSetSeed u imm => Sys2Proof.Machine.execMtSetSeed u imm s
  | .mtSetX u imm => Sys2Proof.Machine.execMtSetX u imm s
  | .mtStep u imm => Sys2Proof.Machine.execMtStep u imm s
  | .mtClr u => Sys2Proof.Machine.execMtClr u s
  | .dlSetFb u imm => Sys2Proof.Machine.execDlSetFb u imm s
  | .dlSetFlags u imm => Sys2Proof.Machine.execDlSetFlags u imm s
  | .dlProc u imm => Sys2Proof.Machine.execDlProc u imm s
  | .dlClr u => Sys2Proof.Machine.execDlClr u s
  | .chSetInMix u imm => Sys2Proof.Machine.execChSetInMix u imm s
  | .chSetFlags u imm => Sys2Proof.Machine.execChSetFlags u imm s
  | .chSetLines u imm => Sys2Proof.Machine.execChSetLines u imm s
  | .chSetDecay u imm => Sys2Proof.Machine.execChSetDecay u imm s
  | .chSetDry u imm => Sys2Proof.Machine.execChSetDry u imm s
  | .chSetEarly u imm => Sys2Proof.Machine.execChSetEarly u imm s
  | .chSetLineOut u imm => Sys2Proof.Machine.execChSetLineOut u imm s
  | .chSetX u imm => Sys2Proof.Machine.execChSetX u imm s
  | .chProc u imm => Sys2Proof.Machine.execChProc u imm s
  | .chClr u => Sys2Proof.Machine.execChClr u s
  | .enSetP u sub imm => Sys2Proof.Machine.execEnSetP u sub imm s
  | .enGetP u sub => Sys2Proof.Machine.execEnGetP u sub s
  | .enProc u imm => Sys2Proof.Machine.execEnProc u imm s
  | .enClr u => Sys2Proof.Machine.execEnClr u s
  | .enSync u => Sys2Proof.Machine.execEnSync u s
  | .fnR2d u imm => Sys2Proof.Machine.execFnR2d u imm s
  | .fnR3d u imm => Sys2Proof.Machine.execFnR3d u imm s
  | .fnR4o u imm => Sys2Proof.Machine.execFnR4o u imm s
  | .fnDb2Lin u imm => Sys2Proof.Machine.execFnDb2Lin u imm s

end Sys2Proof.Machine
end

