-- ==== Sys2Proof/Machine/Step.lean ====
section
/-! DEFINITION. One step of the machine (spec/20_memory.md R80: one global order of atomic commands): the oldest event of
the queue happens. -/

namespace Sys2Proof.Machine

/-- One step: no event, nothing changes (60_exceptions.md R419); the reset input (70_reset_and_hazards.md R430); a command
word on a port, which a word that is no command answers with `Fault(ILLOP)` (30_encoding.md R110 (1), (2)). -/
def step (s : State) : Host.Outcome State Fault Refusal :=
  match s.queue with
  | [] => .next s
  | .resetInput :: q => .next (s.resetBy q)
  | .command p w :: q =>
    match decode w with
    | .ok i => exec i (s.accept p w q)
    | .error _ => fail .illOp (s.accept p w q)

/-- `s` with the instruction whose bits are `w` issued on port `A` as the next event (log entry 1). -/
def State.withFetchWord (s : State) (nbits w : Nat) : State := s.issue .A (tableWord nbits w)

end Sys2Proof.Machine
end

