-- ==== Sys2Proof/WellFormed.lean ====
section
/-! DEFINITION. Well-formed commands: the unit field names a unit of the class the command acts on (spec/30_encoding.md
R104 to R106), `sub` is a legal register number, memory number, block index or key, and `imm` lies in the legal range the
command's rule states. A command that is not well-formed is still a command: it raises the fault its rule names. -/

namespace Sys2Proof

open Machine

/-- The unit classes (10_state.md R24). -/
inductive UnitClass
  | sys
  | eng
  | rng
  | rbuf
  | fn
  | io
  | chan
  | hp1
  | lp1
  | shelf
  | map
  | diff
  | mdly
  | mtap
  | dline
  deriving DecidableEq, Repr

/-- The class of a unit instance (30_encoding.md R104). -/
def UnitRef.cls : UnitRef → UnitClass
  | .sys => .sys
  | .eng => .eng
  | .rng => .rng
  | .rbuf => .rbuf
  | .fn => .fn
  | .io _ => .io
  | .chan _ => .chan
  | .hp1 _ => .hp1
  | .lp1 _ => .lp1
  | .shelf _ => .shelf
  | .map _ => .map
  | .diff _ => .diff
  | .mdly _ => .mdly
  | .mtap _ => .mtap
  | .dline _ _ => .dline

/-- `n` is a register number of the class (R25 to R37; no class FN, no class IO, 49_engine.md R385). -/
def UnitClass.hasReg (c : UnitClass) (n : Nat) : Bool :=
  match c with
  | .sys => decide (n ≤ 5)
  | .eng => decide (n ≤ 10)
  | .rng => decide (n ≤ 1)
  | .rbuf => decide (n ≤ 2)
  | .fn => false
  | .io => false
  | .chan => decide (n ≤ 7)
  | .hp1 => decide (n ≤ 3)
  | .lp1 => decide (n ≤ 3)
  | .shelf => decide (n ≤ 11)
  | .map => decide (n ≤ 11)
  | .diff => decide (n ≤ 7)
  | .mdly => decide (n ≤ 11) && n != 1 && n != 4
  | .mtap => decide (n ≤ 5)
  | .dline => decide (n ≤ 4)

/-- The classes with registers: every class but FN and IO (R385). -/
def UnitClass.hasRegs : UnitClass → Bool
  | .fn => false
  | .io => false
  | _ => true

/-- The classes with a memory (30_encoding.md R106, 49_engine.md R386). -/
def UnitClass.hasMems : UnitClass → Bool
  | .rbuf => true
  | .map => true
  | .diff => true
  | .mdly => true
  | .mtap => true
  | .dline => true
  | .io => true
  | _ => false

/-- The size in words of memory `m` of the class, 0 where it has no memory of that number (20_memory.md R70,
49_engine.md R386). -/
def UnitClass.memWords (c : UnitClass) (m : Nat) : Nat :=
  match c with
  | .rbuf => if m = 0 then Config.rbCap else 0
  | .map => if m = 0 then Config.apCap else 0
  | .diff => if m = 1 then Config.diffDraws else 0
  | .mdly => if m = 0 then Config.dlCap else 0
  | .mtap => if m = 0 then Config.dlCap else if m = 1 then 3 * Config.maxTaps else if m ≤ 3 then Config.maxTaps else 0
  | .dline => if m = 0 then Config.fbqCap else 0
  | .io => if m = 0 then Config.block else 0
  | _ => 0

/-- The address names a unit whose class has the property `p`. -/
def namesClass (u : UnitAddr) (p : UnitClass → Bool) : Bool :=
  match unitOf u with
  | some r => p r.cls
  | none => false

/-- The address names a unit of class `c`. -/
def names (u : UnitAddr) (c : UnitClass) : Bool := namesClass u (· == c)

/-- The address names a unit with a register `n` (R385). -/
def namesReg (u : UnitAddr) (n : Nat) : Bool :=
  match unitOf u with
  | some r => r.cls.hasReg n
  | none => false

/-- The address names a unit with a word `i` in a memory `m` (R386). -/
def namesWord (u : UnitAddr) (m i : Nat) : Bool :=
  match unitOf u with
  | some r => decide (i < r.cls.memWords m)
  | none => false

/-- The unit field names a unit of the class the command acts on (R105, R110 (4)); a command of format N uses no unit. -/
def Instr.unitOk : Instr → Bool
  | .nop => true
  | .reset => true
  | .rdreg u _ => namesClass u UnitClass.hasRegs
  | .rdmem u _ _ => namesClass u UnitClass.hasMems
  | .clrf => true
  | .ioWr u _ _ => names u .io
  | .ioRd u _ => names u .io
  | .rngSeed u _ => names u .rng
  | .rngNext u => names u .rng
  | .rbSetSeed u _ => names u .rbuf
  | .rbSetX u _ => names u .rbuf
  | .rbGen u _ => names u .rbuf
  | .rbGenX u _ => names u .rbuf
  | .lpSetFc u _ => names u .lp1
  | .lpStep u _ => names u .lp1
  | .lpClr u => names u .lp1
  | .hpSetFc u _ => names u .hp1
  | .hpStep u _ => names u .hp1
  | .hpClr u => names u .hp1
  | .shSetF u _ => names u .shelf
  | .shSetG u _ => names u .shelf
  | .shStep u _ => names u .shelf
  | .shClr u => names u .shelf
  | .apSetDly u _ => names u .map
  | .apSetFb u _ => names u .map
  | .apSetModA u _ => names u .map
  | .apSetModR u _ => names u .map
  | .apSetInterp u _ => names u .map
  | .apSetModEn u _ => names u .map
  | .apStep u _ => names u .map
  | .apClr u => names u .map
  | .dfSetStages u _ => names u .diff
  | .dfSetDly u _ => names u .diff
  | .dfSetFb u _ => names u .diff
  | .dfSetModA u _ => names u .diff
  | .dfSetModR u _ => names u .diff
  | .dfSetSeed u _ => names u .diff
  | .dfSetX u _ => names u .diff
  | .dfSetInterp u _ => names u .diff
  | .dfSetModEn u _ => names u .diff
  | .dfStep u _ => names u .diff
  | .dfClr u => names u .diff
  | .mdSetDly u _ => names u .mdly
  | .mdSetModA u _ => names u .mdly
  | .mdSetModR u _ => names u .mdly
  | .mdStep u _ => names u .mdly
  | .mdClr u => names u .mdly
  | .mtSetTaps u _ => names u .mtap
  | .mtSetLen u _ => names u .mtap
  | .mtSetDecay u _ => names u .mtap
  | .mtSetSeed u _ => names u .mtap
  | .mtSetX u _ => names u .mtap
  | .mtStep u _ => names u .mtap
  | .mtClr u => names u .mtap
  | .dlSetFb u _ => names u .dline
  | .dlSetFlags u _ => names u .dline
  | .dlProc u _ => names u .dline
  | .dlClr u => names u .dline
  | .chSetInMix u _ => names u .chan
  | .chSetFlags u _ => names u .chan
  | .chSetLines u _ => names u .chan
  | .chSetDecay u _ => names u .chan
  | .chSetDry u _ => names u .chan
  | .chSetEarly u _ => names u .chan
  | .chSetLineOut u _ => names u .chan
  | .chSetX u _ => names u .chan
  | .chProc u _ => names u .chan
  | .chClr u => names u .chan
  | .enSetP u _ _ => names u .eng
  | .enGetP u _ => names u .eng
  | .enProc u _ => names u .eng
  | .enClr u => names u .eng
  | .enSync u => names u .eng
  | .fnR2d u _ => names u .fn
  | .fnR3d u _ => names u .fn
  | .fnR4o u _ => names u .fn
  | .fnDb2Lin u _ => names u .fn

/-- `sub` and `imm` pass the checks of the command's own rule (R110 (5)). -/
def Instr.operandOk : Instr → Bool
  | .nop => true
  | .reset => true
  | .rdreg u sub => namesReg u sub.toNat
  | .rdmem u sub imm => namesWord u sub.toNat imm.toNat
  | .clrf => true
  | .ioWr _ sub _ => indexOk sub
  | .ioRd _ sub => indexOk sub
  | .rngSeed _ _ => true
  | .rngNext _ => true
  | .rbSetSeed _ _ => true
  | .rbSetX _ imm => inUnit imm
  | .rbGen _ imm => countOk imm.toNat
  | .rbGenX _ imm => countOk imm.toNat
  | .lpSetFc _ imm => isFinite imm
  | .lpStep _ _ => true
  | .lpClr _ => true
  | .hpSetFc _ imm => isFinite imm
  | .hpStep _ _ => true
  | .hpClr _ => true
  | .shSetF _ imm => isFinite imm
  | .shSetG _ imm => !isNaN imm
  | .shStep _ _ => true
  | .shClr _ => true
  | .apSetDly _ imm => delayOk Config.apCap imm.toNat
  | .apSetFb _ imm => isFinite imm
  | .apSetModA _ imm => modAOk Config.apCap imm
  | .apSetModR _ imm => modROk imm
  | .apSetInterp _ imm => boolOk imm
  | .apSetModEn _ imm => boolOk imm
  | .apStep _ _ => true
  | .apClr _ => true
  | .dfSetStages _ imm => stagesOk imm.toNat
  | .dfSetDly _ imm => delayOk Config.apCap imm.toNat
  | .dfSetFb _ imm => isFinite imm
  | .dfSetModA _ imm => modAOk (Config.apCap / 2) imm
  | .dfSetModR _ imm => diffModROk imm
  | .dfSetSeed _ _ => true
  | .dfSetX _ imm => inUnit imm
  | .dfSetInterp _ imm => boolOk imm
  | .dfSetModEn _ imm => boolOk imm
  | .dfStep _ _ => true
  | .dfClr _ => true
  | .mdSetDly _ imm => delayOk Config.dlCap imm.toNat
  | .mdSetModA _ imm => modAOk Config.dlCap imm
  | .mdSetModR _ imm => modROk imm
  | .mdStep _ _ => true
  | .mdClr _ => true
  | .mtSetTaps _ imm => tapsOk imm.toNat
  | .mtSetLen _ imm => lenOk imm.toNat
  | .mtSetDecay _ imm => inUnit imm
  | .mtSetSeed _ _ => true
  | .mtSetX _ imm => inUnit imm
  | .mtStep _ _ => true
  | .mtClr _ => true
  | .dlSetFb _ imm => isFinite imm
  | .dlSetFlags _ imm => maskOk 5 imm
  | .dlProc _ imm => blockOk imm.toNat
  | .dlClr _ => true
  | .chSetInMix _ imm => isFinite imm
  | .chSetFlags _ imm => maskOk 4 imm
  | .chSetLines _ imm => linesOk imm.toNat
  | .chSetDecay _ imm => decayTOk imm
  | .chSetDry _ imm => isFinite imm
  | .chSetEarly _ imm => isFinite imm
  | .chSetLineOut _ imm => isFinite imm
  | .chSetX _ imm => inUnit imm
  | .chProc _ imm => blockOk imm.toNat
  | .chClr _ => true
  | .enSetP _ sub _ => keyOk sub
  | .enGetP _ sub => keyOk sub
  | .enProc _ imm => blockOk imm.toNat
  | .enClr _ => true
  | .enSync _ => true
  | .fnR2d _ _ => true
  | .fnR3d _ _ => true
  | .fnR4o _ _ => true
  | .fnDb2Lin _ _ => true

/-- The opcode of every command (30_encoding.md R106). -/
def Instr.opcode : Instr → BitVec 8
  | .nop => 0x00
  | .reset => 0x01
  | .rdreg _ _ => 0x02
  | .rdmem _ _ _ => 0x03
  | .clrf => 0x04
  | .ioWr _ _ _ => 0x05
  | .ioRd _ _ => 0x06
  | .rngSeed _ _ => 0x10
  | .rngNext _ => 0x11
  | .rbSetSeed _ _ => 0x12
  | .rbSetX _ _ => 0x13
  | .rbGen _ _ => 0x14
  | .rbGenX _ _ => 0x15
  | .lpSetFc _ _ => 0x20
  | .lpStep _ _ => 0x21
  | .lpClr _ => 0x22
  | .hpSetFc _ _ => 0x24
  | .hpStep _ _ => 0x25
  | .hpClr _ => 0x26
  | .shSetF _ _ => 0x30
  | .shSetG _ _ => 0x31
  | .shStep _ _ => 0x32
  | .shClr _ => 0x33
  | .apSetDly _ _ => 0x40
  | .apSetFb _ _ => 0x41
  | .apSetModA _ _ => 0x42
  | .apSetModR _ _ => 0x43
  | .apSetInterp _ _ => 0x44
  | .apSetModEn _ _ => 0x45
  | .apStep _ _ => 0x46
  | .apClr _ => 0x47
  | .dfSetStages _ _ => 0x50
  | .dfSetDly _ _ => 0x51
  | .dfSetFb _ _ => 0x52
  | .dfSetModA _ _ => 0x53
  | .dfSetModR _ _ => 0x54
  | .dfSetSeed _ _ => 0x55
  | .dfSetX _ _ => 0x56
  | .dfSetInterp _ _ => 0x57
  | .dfSetModEn _ _ => 0x58
  | .dfStep _ _ => 0x59
  | .dfClr _ => 0x5A
  | .mdSetDly _ _ => 0x60
  | .mdSetModA _ _ => 0x61
  | .mdSetModR _ _ => 0x62
  | .mdStep _ _ => 0x63
  | .mdClr _ => 0x64
  | .mtSetTaps _ _ => 0x70
  | .mtSetLen _ _ => 0x71
  | .mtSetDecay _ _ => 0x72
  | .mtSetSeed _ _ => 0x73
  | .mtSetX _ _ => 0x74
  | .mtStep _ _ => 0x75
  | .mtClr _ => 0x76
  | .dlSetFb _ _ => 0x80
  | .dlSetFlags _ _ => 0x81
  | .dlProc _ _ => 0x82
  | .dlClr _ => 0x83
  | .chSetInMix _ _ => 0x90
  | .chSetFlags _ _ => 0x91
  | .chSetLines _ _ => 0x92
  | .chSetDecay _ _ => 0x93
  | .chSetDry _ _ => 0x94
  | .chSetEarly _ _ => 0x95
  | .chSetLineOut _ _ => 0x96
  | .chSetX _ _ => 0x97
  | .chProc _ _ => 0x98
  | .chClr _ => 0x99
  | .enSetP _ _ _ => 0xA0
  | .enGetP _ _ => 0xA1
  | .enProc _ _ => 0xA2
  | .enClr _ => 0xA3
  | .enSync _ => 0xA4
  | .fnR2d _ _ => 0xB0
  | .fnR3d _ _ => 0xB1
  | .fnR4o _ _ => 0xB2
  | .fnDb2Lin _ _ => 0xB3

/-- The five formats (R101): which of the fields unit, sub, imm a command uses. -/
inductive Format
  | n
  | u
  | ui
  | us
  | usi
  deriving DecidableEq, Repr

/-- The bits a word of the format must have as its opcode says: the opcode, and zero in every unused field (R107). -/
def Format.mask : Format → Command
  | .n => 0xFFFFFFFFFFFFFFFF#64
  | .u => 0xFF0000FFFFFFFFFF#64
  | .ui => 0xFF0000FF00000000#64
  | .us => 0xFF000000FFFFFFFF#64
  | .usi => 0xFF00000000000000#64

/-- The format of every command (R106). -/
def Instr.format : Instr → Format
  | .nop => .n
  | .reset => .n
  | .rdreg _ _ => .us
  | .rdmem _ _ _ => .usi
  | .clrf => .n
  | .ioWr _ _ _ => .usi
  | .ioRd _ _ => .us
  | .rngSeed _ _ => .ui
  | .rngNext _ => .u
  | .rbSetSeed _ _ => .ui
  | .rbSetX _ _ => .ui
  | .rbGen _ _ => .ui
  | .rbGenX _ _ => .ui
  | .lpSetFc _ _ => .ui
  | .lpStep _ _ => .ui
  | .lpClr _ => .u
  | .hpSetFc _ _ => .ui
  | .hpStep _ _ => .ui
  | .hpClr _ => .u
  | .shSetF _ _ => .ui
  | .shSetG _ _ => .ui
  | .shStep _ _ => .ui
  | .shClr _ => .u
  | .apSetDly _ _ => .ui
  | .apSetFb _ _ => .ui
  | .apSetModA _ _ => .ui
  | .apSetModR _ _ => .ui
  | .apSetInterp _ _ => .ui
  | .apSetModEn _ _ => .ui
  | .apStep _ _ => .ui
  | .apClr _ => .u
  | .dfSetStages _ _ => .ui
  | .dfSetDly _ _ => .ui
  | .dfSetFb _ _ => .ui
  | .dfSetModA _ _ => .ui
  | .dfSetModR _ _ => .ui
  | .dfSetSeed _ _ => .ui
  | .dfSetX _ _ => .ui
  | .dfSetInterp _ _ => .ui
  | .dfSetModEn _ _ => .ui
  | .dfStep _ _ => .ui
  | .dfClr _ => .u
  | .mdSetDly _ _ => .ui
  | .mdSetModA _ _ => .ui
  | .mdSetModR _ _ => .ui
  | .mdStep _ _ => .ui
  | .mdClr _ => .u
  | .mtSetTaps _ _ => .ui
  | .mtSetLen _ _ => .ui
  | .mtSetDecay _ _ => .ui
  | .mtSetSeed _ _ => .ui
  | .mtSetX _ _ => .ui
  | .mtStep _ _ => .ui
  | .mtClr _ => .u
  | .dlSetFb _ _ => .ui
  | .dlSetFlags _ _ => .ui
  | .dlProc _ _ => .ui
  | .dlClr _ => .u
  | .chSetInMix _ _ => .ui
  | .chSetFlags _ _ => .ui
  | .chSetLines _ _ => .ui
  | .chSetDecay _ _ => .ui
  | .chSetDry _ _ => .ui
  | .chSetEarly _ _ => .ui
  | .chSetLineOut _ _ => .ui
  | .chSetX _ _ => .ui
  | .chProc _ _ => .ui
  | .chClr _ => .u
  | .enSetP _ _ _ => .usi
  | .enGetP _ _ => .us
  | .enProc _ _ => .ui
  | .enClr _ => .u
  | .enSync _ => .u
  | .fnR2d _ _ => .ui
  | .fnR3d _ _ => .ui
  | .fnR4o _ _ => .ui
  | .fnDb2Lin _ _ => .ui

/-- The command is well-formed. -/
def Instr.wf (i : Instr) : Bool := i.unitOk && i.operandOk

end Sys2Proof
end

