-- ==== Sys2Proof/Safety.lean ====
section
/-! DEFINITION. What counts as a safe state and a safe change of state, in the terms the statements use: the order of the
decode checks (spec/30_encoding.md R110), what a command leaves untouched as the debug reads show it, the parts of a unit
that are signal state, the legal values of the registers (spec/10_state.md, columns "legal values"; spec/60_exceptions.md
R406), and the agreement of every derived value with the registers it derives from (spec/20_memory.md R85). -/

namespace Sys2Proof

/-! ## Decode checks -/

/-- The commands port `C` accepts (60_exceptions.md R412). -/
def Instr.onPortC : Instr → Bool
  | .nop => true
  | .rdreg _ _ => true
  | .enSetP _ _ _ => true
  | .enGetP _ _ => true
  | _ => false

/-- The fault of a failing operand check (60_exceptions.md R406 to R408): an index, a key, or a configuration value. -/
def Instr.ownCause : Instr → Machine.FaultCause
  | .rdreg _ _ => .idxErr
  | .rdmem _ _ _ => .idxErr
  | .ioWr _ _ _ => .idxErr
  | .ioRd _ _ => .idxErr
  | .enSetP _ _ _ => .keyErr
  | .enGetP _ _ => .keyErr
  | _ => .cfgErr

/-- The first check that fails of a command arriving on port `p`, in the order of 30_encoding.md R110 (3) to (5). -/
def Instr.firstFault (i : Instr) (p : Port) : Option Machine.FaultCause :=
  if p = .C ∧ i.onPortC = false then some .illPort
  else if i.unitOk = false then some .illUnit
  else if i.operandOk = false then some i.ownCause
  else none

/-- The first check that fails of a word arriving on port `p`, in the order of R110 (1) to (5). -/
def wordFault (p : Port) (w : Command) : Option Machine.FaultCause :=
  match decode w with
  | .ok i => i.firstFault p
  | .error _ => some .illOp

/-- The `SET` commands (20_memory.md R76). -/
def Instr.isSet : Instr → Bool
  | .rbSetSeed _ _ => true
  | .rbSetX _ _ => true
  | .lpSetFc _ _ => true
  | .hpSetFc _ _ => true
  | .shSetF _ _ => true
  | .shSetG _ _ => true
  | .apSetDly _ _ => true
  | .apSetFb _ _ => true
  | .apSetModA _ _ => true
  | .apSetModR _ _ => true
  | .apSetInterp _ _ => true
  | .apSetModEn _ _ => true
  | .dfSetStages _ _ => true
  | .dfSetDly _ _ => true
  | .dfSetFb _ _ => true
  | .dfSetModA _ _ => true
  | .dfSetModR _ _ => true
  | .dfSetSeed _ _ => true
  | .dfSetX _ _ => true
  | .dfSetInterp _ _ => true
  | .dfSetModEn _ _ => true
  | .mdSetDly _ _ => true
  | .mdSetModA _ _ => true
  | .mdSetModR _ _ => true
  | .mtSetTaps _ _ => true
  | .mtSetLen _ _ => true
  | .mtSetDecay _ _ => true
  | .mtSetSeed _ _ => true
  | .mtSetX _ _ => true
  | .dlSetFb _ _ => true
  | .dlSetFlags _ _ => true
  | .chSetInMix _ _ => true
  | .chSetFlags _ _ => true
  | .chSetLines _ _ => true
  | .chSetDecay _ _ => true
  | .chSetDry _ _ => true
  | .chSetEarly _ _ => true
  | .chSetLineOut _ _ => true
  | .chSetX _ _ => true
  | .enSetP _ _ _ => true
  | _ => false

/-! ## Places: units inside a line or a channel (10_state.md R24) -/

/-- The unit is line `j` of side `sd` or a sub-unit of it. -/
def UnitRef.inLine (r : UnitRef) (sd : Side) (j : Fin 12) : Bool :=
  match r with
  | .dline sd' j' => sd' == sd && j' == j
  | .mdly (.line sd' j') => sd' == sd && j' == j
  | .diff (.line sd' j') => sd' == sd && j' == j
  | .map ⟨.line sd' j', _⟩ => sd' == sd && j' == j
  | .shelf q => q.sd == sd && q.j == j
  | .lp1 (.damp sd' j') => sd' == sd && j' == j
  | _ => false

/-- The unit is the channel of side `sd` or a sub-unit of it. -/
def UnitRef.inChan (r : UnitRef) (sd : Side) : Bool :=
  match r with
  | .chan sd' => sd' == sd
  | .hp1 sd' => sd' == sd
  | .lp1 (.chan sd') => sd' == sd
  | .lp1 (.damp sd' _) => sd' == sd
  | .shelf q => q.sd == sd
  | .map ⟨.early sd', _⟩ => sd' == sd
  | .map ⟨.line sd' _, _⟩ => sd' == sd
  | .diff (.early sd') => sd' == sd
  | .diff (.line sd' _) => sd' == sd
  | .mdly (.pre sd') => sd' == sd
  | .mdly (.line sd' _) => sd' == sd
  | .mtap sd' => sd' == sd
  | .dline sd' _ => sd' == sd
  | _ => false

/-- The registers that samples change: histories, phase, counter, taps, cursors and the fill count (R27 to R33). -/
def UnitClass.signalReg (c : UnitClass) (n : Nat) : Bool :=
  match c with
  | .hp1 => n == 3
  | .lp1 => n == 3
  | .shelf => decide (7 ≤ n) && decide (n ≤ 10)
  | .map => decide (5 ≤ n) && decide (n ≤ 11)
  | .mdly => decide (5 ≤ n) && decide (n ≤ 11)
  | .mtap => n == 5
  | .dline => decide (2 ≤ n) && decide (n ≤ 4)
  | _ => false

/-- The registers a `CLR` command writes: filter histories and the queue cursors and count (70_reset_and_hazards.md R433). -/
def UnitClass.clearedReg (c : UnitClass) (n : Nat) : Bool :=
  match c with
  | .hp1 => n == 3
  | .lp1 => n == 3
  | .shelf => decide (7 ≤ n) && decide (n ≤ 10)
  | .dline => decide (2 ≤ n) && decide (n ≤ 4)
  | _ => false

/-- The memories that hold samples of the signal path: `BUF` and `Q` (20_memory.md R70). -/
def UnitClass.sampleMem (c : UnitClass) (m : Nat) : Bool :=
  match c with
  | .map => m == 0
  | .mdly => m == 0
  | .mtap => m == 0
  | .dline => m == 0
  | _ => false

namespace Machine

/-! ## What a command leaves untouched -/

/-- From `s` to `t`: every register outside `regs` and every memory word outside `mems` reads as before (through the
debug reads of 49_engine.md R385, R386, which show all state of the machine), and the command in execution and the events
to come are the same. -/
def Untouched (s t : State) (regs : UnitRef → Nat → Prop) (mems : UnitRef → Nat → Nat → Prop) : Prop :=
  (∀ r n, ¬ regs r n → readReg t r n = readReg s r n) ∧
  (∀ r m i, ¬ mems r m i → readMem t r m i = readMem s r m i) ∧
  t.port = s.port ∧ t.word = s.word ∧ t.queue = s.queue

/-- No register. -/
def noReg : UnitRef → Nat → Prop := fun _ _ => False

/-- No memory word. -/
def noMem : UnitRef → Nat → Nat → Prop := fun _ _ _ => False

/-- The register number of `RES[p]` in `SYS` (10_state.md R37). -/
def resNumber : Port → Nat
  | .A => 4
  | .C => 5

/-- The result register of the present port. -/
def resReg (s : State) : UnitRef → Nat → Prop := fun r n => r = .sys ∧ n = resNumber s.port

/-- The commands of a list, one after the other, with no other event between. -/
def runCommands : List Instr → State → Out
  | [], s => .next s
  | i :: is, s =>
    match exec i s with
    | .next t => runCommands is t
    | .fault f => .fault f
    | .refused r => .refused r

/-- An MDLY after a list of input samples (45_moddelay.md R260). -/
def ModDelay.feed (cfg : Config.Params) : ModDelay → List F → ModDelay
  | u, [] => u
  | u, v :: vs => ModDelay.feed cfg (mdlyStep cfg u v).2 vs

/-- The values waiting in the feedback queue, oldest first (20_memory.md R77). -/
def DelayLine.contents (l : DelayLine) : List F :=
  (List.range l.qCount).map fun i => memRead l.q ((l.qRd + i) % Config.fbqCap)

/-! ## Rounding (00_scope.md R11, R12; what binary32 is, log entry 8) -/

/-- `z` is the binary32 value of sign `neg` nearest the magnitude `num / den`, in units of 2^-149: no finite magnitude is
nearer, one as near has an odd pattern, and `z` is infinite from half a place above the largest finite value up. -/
structure RoundedTo (z : F) (neg : Bool) (num den : Nat) : Prop where
  sign : signBit z = neg
  le_inf : magBits z ≤ infBits
  nearest : magBits z < infBits → ∀ m, m < infBits →
    ((magUnits z * den : Nat) - num : Int).natAbs ≤ ((magUnits (BitVec.ofNat 32 m) * den : Nat) - num : Int).natAbs
  even : magBits z < infBits → ∀ m, m < infBits → m ≠ magBits z →
    ((magUnits z * den : Nat) - num : Int).natAbs = ((magUnits (BitVec.ofNat 32 m) * den : Nat) - num : Int).natAbs →
    magBits z % 2 = 0
  overflow : magBits z = infBits ↔ (2 ^ 25 - 1) * 2 ^ 252 * den ≤ num

/-- `z` is the binary32 value nearest the square root of `n` square units of 2^-149, ties to even: the root lies on the side
of `z` of every point halfway between `z` and another magnitude. -/
structure RootedTo (z : F) (n : Nat) : Prop where
  sign : signBit z = false
  lt_inf : magBits z < infBits
  above : ∀ m, m < infBits → magUnits (BitVec.ofNat 32 m) < magUnits z →
    (magUnits z + magUnits (BitVec.ofNat 32 m)) ^ 2 ≤ 4 * n ∧
    ((magUnits z + magUnits (BitVec.ofNat 32 m)) ^ 2 = 4 * n → magBits z % 2 = 0)
  below : ∀ m, m < infBits → magUnits z < magUnits (BitVec.ofNat 32 m) →
    4 * n ≤ (magUnits z + magUnits (BitVec.ofNat 32 m)) ^ 2 ∧
    (4 * n = (magUnits z + magUnits (BitVec.ofNat 32 m)) ^ 2 → magBits z % 2 = 0)

/-! ## Silence (48_channel.md R329): every sample memory and filter history is zero, of either sign -/

/-- Every word of a memory is a zero. -/
def silentMem (m : Mem) : Prop := ∀ i, isZero (memRead m i) = true

/-- The histories of a shelf are zero. -/
def Shelf.Silent (u : Shelf) : Prop :=
  isZero u.x1 = true ∧ isZero u.x2 = true ∧ isZero u.y1 = true ∧ isZero u.y2 = true

/-- The stage buffers of a diffuser are zero. -/
def Diffuser.Silent (d : Diffuser) : Prop := ∀ k : Fin 12, silentMem d.stage[k].core.buf

/-- A delay line is silent. -/
structure DelayLine.Silent (l : DelayLine) : Prop where
  delay : silentMem l.delay.buf
  df : l.df.Silent
  ls : l.ls.Silent
  hs : l.hs.Silent
  damp : isZero l.damp.z = true
  q : silentMem l.q

/-- A channel is silent. -/
structure Channel.Silent (c : Channel) : Prop where
  hp : isZero c.hp.z = true
  lp : isZero c.lp.z = true
  pre : silentMem c.pre.buf
  mt : silentMem c.mt.buf
  ed : c.ed.Silent
  line : ∀ j : Fin 12, c.line[j].Silent

/-! ## Legal values (10_state.md R25 to R35) -/

/-- Legal values of an MDLY, and of the same registers of a MAP, with a buffer of `cap` words (R29, R31). -/
structure ModDelay.Legal (cap : Nat) (u : ModDelay) : Prop where
  dly_ge : 1 ≤ u.dly
  dly_le : u.dly ≤ cap - 2
  phase_ge : fle fzero u.phase = true
  phase_lt : flt u.phase fone = true
  cnt_le : u.cnt ≤ Config.modPeriod
  delayB_eq : u.taps.delayB = u.taps.delayA + 1
  widx_lt : u.widx < cap
  buf_wf : Memory.wf u.buf = true
  buf_within : memWithin cap u.buf = true

/-- Legal values of an MDLY (R31). -/
structure ModDelay.LegalDelay (u : ModDelay) : Prop where
  core : u.Legal Config.dlCap
  modA : modAOk Config.dlCap u.modA = true
  modR : modROk u.modR = true

/-- Legal values of a MAP (R29) but for `MODA`, `MODR` and `DELAYA`, which `Allpass.Ranged` adds. -/
structure Allpass.Legal (u : Allpass) : Prop where
  core : u.core.Legal Config.apCap
  fb : isFinite u.fb = true

/-- Legal values of a one-pole filter (R27). -/
structure OnePole.Legal (u : OnePole) : Prop where
  fc : isFinite u.fc = true

/-- Legal values of a shelf (R28). -/
structure Shelf.Legal (u : Shelf) : Prop where
  freq : isFinite u.freq = true
  gain : inRange (fneg Config.shelfGainLim) Config.shelfGainLim u.gain = true

/-- Legal values of a DIFF (R30). -/
structure Diffuser.Legal (d : Diffuser) : Prop where
  stages : d.stages ≤ Config.maxStages
  dly : delayOk Config.apCap d.dly = true
  fb : isFinite d.fb = true
  modA : modAOk (Config.apCap / 2) d.modA = true
  modR : diffModROk d.modR = true
  xseed : inUnit d.xseed = true
  seedV_wf : Memory.wf d.seedV = true
  seedV_within : memWithin Config.diffDraws d.seedV = true
  stage : ∀ k : Fin 12, d.stage[k].Legal

/-- Legal values of an MTAP (R32). -/
structure Multitap.Legal (u : Multitap) : Prop where
  taps : tapsOk u.taps = true
  len : lenOk u.len = true
  decay : inUnit u.decay = true
  xseed : inUnit u.xseed = true
  widx : u.widx < Config.dlCap
  buf_wf : Memory.wf u.buf = true
  buf_within : memWithin Config.dlCap u.buf = true
  seedV_wf : Memory.wf u.seedV = true
  seedV_within : memWithin (3 * Config.maxTaps) u.seedV = true
  tapGain_wf : Memory.wf u.tapGain = true
  tapGain_within : memWithin Config.maxTaps u.tapGain = true
  tapPos_wf : Memory.wf u.tapPos = true
  tapPos_within : memWithin Config.maxTaps u.tapPos = true

/-- The feedback queue is a queue (20_memory.md R77): cursors in range, the write cursor `Q_COUNT` words after the read
cursor. -/
structure DelayLine.QueueOk (l : DelayLine) : Prop where
  rd : l.qRd < Config.fbqCap
  count : l.qCount ≤ Config.fbqCap
  wr : l.qWr = (l.qRd + l.qCount) % Config.fbqCap

/-- Legal values of a DLINE and its sub-units (R33). Not `FB`, which `DelayLine.FbLegal` adds. -/
structure DelayLine.Legal (l : DelayLine) : Prop where
  queue : l.QueueOk
  q_wf : Memory.wf l.q = true
  q_within : memWithin Config.fbqCap l.q = true
  delay : l.delay.LegalDelay
  df : l.df.Legal
  ls : l.ls.Legal
  hs : l.hs.Legal
  damp : l.damp.Legal

/-- Legal values of a CHAN and its sub-units (R34). -/
structure Channel.Legal (c : Channel) : Prop where
  inMix : isFinite c.inMix = true
  lines : linesOk c.lines = true
  decayT : decayTOk c.decayT = true
  dry : isFinite c.dry = true
  early : isFinite c.early = true
  lineOut : isFinite c.lineOut = true
  xseed : inUnit c.xseed = true
  hp : c.hp.Legal
  lp : c.lp.Legal
  pre : c.pre.LegalDelay
  mt : c.mt.Legal
  ed : c.ed.Legal
  line : ∀ j : Fin 12, c.line[j].Legal

/-- Legal values of the whole machine (R23, R25, R26, R34 to R36). -/
structure State.Legal (s : State) : Prop where
  status : s.sys.status.toNat < 64
  faultCode : s.sys.faultCode.toNat ≤ 6
  np : ∀ k : Fin 10, inUnit s.eng.np[k] = true
  xHi : s.rng.xHi = 0#32
  xseed : inUnit s.rbuf.xseed = true
  count : s.rbuf.count ≤ Config.rbCap
  val_wf : Memory.wf s.rbuf.val = true
  val_within : memWithin Config.rbCap s.rbuf.val = true
  io_wf : ∀ b : Fin 4, Memory.wf s.io[b] = true
  io_within : ∀ b : Fin 4, memWithin Config.block s.io[b] = true
  left : s.left.Legal
  right : s.right.Legal

/-! ## The feedback gains (R33: finite), which `CH.SETDECAY` takes from the free `fpow10` (48_channel.md R315) -/

/-- `POW10_FINITE` (00_scope.md R13): for finite `v <= 38`, `fpow10(v)` is finite and not negative. -/
def Pow10Finite (cfg : Config.Params) : Prop :=
  ∀ v, isFinite v = true → fle v 0x42180000#32 = true → isFinite (cfg.fpow10 v) = true ∧ fle fzero (cfg.fpow10 v) = true

/-- `FB` is finite (R33), or what `fpow10` gives at an argument that is at most 0 (R315, R322). -/
def DelayLine.FbLegal (cfg : Config.Params) (l : DelayLine) : Prop :=
  isFinite l.fb = true ∨ ∃ d, fle d fzero = true ∧ l.fb = cfg.fpow10 d

/-- The feedback gain of every line of the machine. -/
def State.FbLegal (s : State) : Prop := ∀ sd j, (s.line sd j).FbLegal Config.chip

/-! ## The legal values that follow from the ranges of random values (10_state.md R29, R30; 44_diffuser.md R223) -/

/-- `MODA`, `MODR` and `DELAYA` of a MAP are legal (R29). -/
structure Allpass.Ranged (u : Allpass) : Prop where
  modA : modAOk Config.apCap u.core.modA = true
  modR : modROk u.core.modR = true
  delayA : 1 ≤ u.core.taps.delayA

/-- The random values of a DIFF lie in [0, 1], and so its stages are in range. -/
structure Diffuser.Ranged (d : Diffuser) : Prop where
  seedV : ∀ i, inUnit (memRead d.seedV i) = true
  stage : ∀ k : Fin 12, d.stage[k].Ranged

/-- Every diffuser is in range, and no MDLY reads at a delay below 1 (R31). -/
structure State.Ranged (s : State) : Prop where
  ed : ∀ sd, (s.chan sd).ed.Ranged
  df : ∀ sd j, (s.line sd j).df.Ranged
  pre : ∀ sd, 1 ≤ (s.chan sd).pre.taps.delayA
  delay : ∀ sd j, 1 ≤ (s.line sd j).delay.taps.delayA

/-! ## Derived values agree with the registers they derive from (20_memory.md R85, 10_state.md R30, R32) -/

/-- `(B0, A1) = opf_coeffs(FC)` (41_onepole.md R152, R155). -/
def OnePole.Coherent (cfg : Config.Params) (u : OnePole) : Prop := (u.b0, u.a1) = opfCoeffs cfg u.fc

/-- The coefficients are `shelf_coeffs(KIND, FREQ, GAIN)` (42_shelf.md R175, R176). -/
def Shelf.Coherent (cfg : Config.Params) (k : Config.ShelfKind) (u : Shelf) : Prop :=
  u.coeffs = cfg.shelfCoeffs k u.freq u.gain

/-- The tap registers are `TAPCALC` of `DLY`, `MODA`, `PHASE` (43_allpass.md R196). -/
def ModDelay.Coherent (cfg : Config.Params) (u : ModDelay) : Prop := u.taps = tapCalc cfg u.dly u.modA u.phase

/-- `SEEDV` is `generateCross(SEED, XSEED, 36)` (10_state.md R30), and every stage has its taps. -/
structure Diffuser.Coherent (cfg : Config.Params) (d : Diffuser) : Prop where
  seedV : memReadList d.seedV 0 Config.diffDraws = generateCross cfg d.seed d.xseed Config.diffDraws
  stage : ∀ k : Fin 12, d.stage[k].core.Coherent cfg

/-- `SEEDV`, `TAPGAIN` and `TAPPOS` are the function of `SEED` and `XSEED` (46_multitap.md R271, R273). -/
structure Multitap.Coherent (cfg : Config.Params) (u : Multitap) : Prop where
  seedV : memReadList u.seedV 0 (3 * Config.maxTaps) = generateCross cfg u.seed u.xseed (3 * Config.maxTaps)
  tapGain : ∀ i, i < Config.maxTaps →
    memRead u.tapGain i = tapGainOf cfg (memRead u.seedV (3 * i)) (memRead u.seedV (3 * i + 1))
  tapPos : ∀ i, i < Config.maxTaps → memRead u.tapPos i = tapPosOf i (memRead u.seedV (3 * i + 2))

/-- Every derived value of a line but its `FB`, "the one exception ... by design" (20_memory.md R85). -/
structure DelayLine.Coherent (cfg : Config.Params) (l : DelayLine) : Prop where
  delay : l.delay.Coherent cfg
  df : l.df.Coherent cfg
  ls : l.ls.Coherent cfg .low
  hs : l.hs.Coherent cfg .high
  damp : l.damp.Coherent cfg

/-- Every derived value of a channel. -/
structure Channel.Coherent (cfg : Config.Params) (c : Channel) : Prop where
  hp : c.hp.Coherent cfg
  lp : c.lp.Coherent cfg
  pre : c.pre.Coherent cfg
  mt : c.mt.Coherent cfg
  ed : c.ed.Coherent cfg
  line : ∀ j : Fin 12, c.line[j].Coherent cfg

/-- No derived value of the machine is stale. -/
structure State.Coherent (s : State) : Prop where
  left : s.left.Coherent Config.chip
  right : s.right.Coherent Config.chip

/-! ## What `DERIVE` must satisfy (49_engine.md R362 (a), (e)): the types of R361 -/

/-- Legal fields for an MDLY (R31). -/
structure LegalDelayConfig (k : Config.DelayConfig) : Prop where
  dly : delayOk Config.dlCap k.dly = true
  modA : modAOk Config.dlCap k.modA = true
  modR : modROk k.modR = true

/-- Legal fields for a DIFF (R30). -/
structure LegalDiffuserConfig (k : Config.DiffuserConfig) : Prop where
  stages : stagesOk k.stages = true
  dly : delayOk Config.apCap k.dly = true
  fb : isFinite k.fb = true
  modA : modAOk (Config.apCap / 2) k.modA = true
  modR : diffModROk k.modR = true

/-- Legal fields for a line. -/
structure LegalLineConfig (k : Config.LineConfig) : Prop where
  delay : LegalDelayConfig k.delay
  df : LegalDiffuserConfig k.df
  lsF : isFinite k.lsF = true
  lsG : inRange 0xC2700000#32 0x42700000#32 k.lsG = true
  hsF : isFinite k.hsF = true
  hsG : inRange 0xC2700000#32 0x42700000#32 k.hsG = true
  dampFc : isFinite k.dampFc = true

/-- Legal fields for a channel, the decay time between 2400 and 2880000 samples (R362 (e), log entry 18). -/
structure LegalConfig (k : Config.ChannelConfig) : Prop where
  inMix : isFinite k.inMix = true
  dry : isFinite k.dry = true
  early : isFinite k.early = true
  lineOut : isFinite k.lineOut = true
  lines : linesOk k.lines = true
  decayT : inRange 0x45160000#32 0x4A2FC800#32 k.decayT = true
  xseed : inUnit k.xseed = true
  hpFc : isFinite k.hpFc = true
  lpFc : isFinite k.lpFc = true
  pre : LegalDelayConfig k.pre
  taps : tapsOk k.mt.taps = true
  len : lenOk k.mt.len = true
  decay : inUnit k.mt.decay = true
  ed : LegalDiffuserConfig k.ed
  line : ∀ j : Fin 12, LegalLineConfig k.line[j]

/-- Every unit that draws random values has the same `SEED` in both channels (40_rng.md R143). -/
structure Channel.SameSeeds (c d : Channel) : Prop where
  mt : c.mt.seed = d.mt.seed
  ed : c.ed.seed = d.ed.seed
  df : ∀ j : Fin 12, c.line[j].df.seed = d.line[j].df.seed

/-! ## What a re-derivation leaves (49_engine.md R363, 44_diffuser.md R223) -/

/-- `SEEDV` and the derived registers of all 12 stages are the function of the diffuser's registers (R223). -/
structure Diffuser.Derived (cfg : Config.Params) (d : Diffuser) : Prop where
  seedV : memReadList d.seedV 0 Config.diffDraws = generateCross cfg d.seed d.xseed Config.diffDraws
  dly : ∀ k : Fin 12, d.stage[k].core.dly = stageDelay cfg d.dly (memRead d.seedV k.val)
  modA : ∀ k : Fin 12, d.stage[k].core.modA = fmul d.modA (stageFactor (memRead d.seedV (12 + k.val)))
  modR : ∀ k : Fin 12, d.stage[k].core.modR = fmul d.modR (stageFactor (memRead d.seedV (24 + k.val)))
  taps : ∀ k : Fin 12, d.stage[k].core.Coherent cfg

/-- The configuration registers of an MDLY hold the fields of `k`. -/
structure ModDelay.Holds (u : ModDelay) (k : Config.DelayConfig) : Prop where
  dly : u.dly = k.dly
  modA : u.modA = k.modA
  modR : u.modR = k.modR

/-- The configuration registers of a DIFF, and the `FB` and flags of its stages, hold the fields of `k`, its cross seed
`x`. -/
structure Diffuser.Holds (d : Diffuser) (k : Config.DiffuserConfig) (x : F) : Prop where
  stages : d.stages = k.stages
  dly : d.dly = k.dly
  fb : d.fb = k.fb
  modA : d.modA = k.modA
  modR : d.modR = k.modR
  seed : d.seed = k.seed
  xseed : d.xseed = x
  interp : flagInterp d.flags = k.interp
  modEn : flagModEn d.flags = k.modEn
  stageFb : ∀ i : Fin 12, d.stage[i].fb = k.fb
  stageInterp : ∀ i : Fin 12, flagInterp d.stage[i].flags = k.interp
  stageModEn : ∀ i : Fin 12, flagModEn d.stage[i].flags = k.modEn

/-- The configuration registers of an MTAP hold the fields of `k`, its cross seed `x`. -/
structure Multitap.Holds (u : Multitap) (k : Config.MultitapConfig) (x : F) : Prop where
  taps : u.taps = k.taps
  len : u.len = k.len
  decay : u.decay = k.decay
  seed : u.seed = k.seed
  xseed : u.xseed = x

/-- The configuration registers of a line and below hold the fields of `k`, its cross seed `x` and its gain that of the
decay time `t` (48_channel.md R315). -/
structure DelayLine.Holds (cfg : Config.Params) (l : DelayLine) (k : Config.LineConfig) (x t : F) : Prop where
  fb : l.fb = lineFb cfg k.delay.dly t
  flags : l.flags = k.flags
  delay : l.delay.Holds k.delay
  df : l.df.Holds k.df x
  lsF : l.ls.freq = k.lsF
  lsG : l.ls.gain = clampGain k.lsG
  hsF : l.hs.freq = k.hsF
  hsG : l.hs.gain = clampGain k.hsG
  damp : l.damp.fc = k.dampFc

/-- Every configuration register of a channel and below holds its field of `k` (R363). -/
structure Channel.Holds (cfg : Config.Params) (c : Channel) (k : Config.ChannelConfig) : Prop where
  inMix : c.inMix = k.inMix
  flags : c.flags = k.flags
  lines : c.lines = k.lines
  decayT : c.decayT = k.decayT
  dry : c.dry = k.dry
  early : c.early = k.early
  lineOut : c.lineOut = k.lineOut
  xseed : c.xseed = k.xseed
  hp : c.hp.fc = k.hpFc
  lp : c.lp.fc = k.lpFc
  pre : c.pre.Holds k.pre
  mt : c.mt.Holds k.mt k.xseed
  ed : c.ed.Holds k.ed k.xseed
  line : ∀ j : Fin 12, c.line[j].Holds cfg k.line[j] k.xseed k.decayT

/-- The signal state of an MDLY is the same: `PHASE`, `CNT`, `WIDX` and the buffer. -/
structure ModDelay.SameSignal (u v : ModDelay) : Prop where
  phase : v.phase = u.phase
  cnt : v.cnt = u.cnt
  widx : v.widx = u.widx
  buf : v.buf = u.buf

/-- The signal state of every stage is the same. -/
def Diffuser.SameSignal (d e : Diffuser) : Prop := ∀ k : Fin 12, d.stage[k].core.SameSignal e.stage[k].core

/-- The history of a shelf is the same. -/
def Shelf.SameSignal (u v : Shelf) : Prop := v.x1 = u.x1 ∧ v.x2 = u.x2 ∧ v.y1 = u.y1 ∧ v.y2 = u.y2

/-- The signal state of a line and below is the same, the feedback queue included. -/
structure DelayLine.SameSignal (l m : DelayLine) : Prop where
  qRd : m.qRd = l.qRd
  qWr : m.qWr = l.qWr
  qCount : m.qCount = l.qCount
  q : m.q = l.q
  delay : l.delay.SameSignal m.delay
  df : l.df.SameSignal m.df
  ls : l.ls.SameSignal m.ls
  hs : l.hs.SameSignal m.hs
  damp : m.damp.z = l.damp.z

/-- The signal state of a channel and below is the same (R363: sample memories, filter histories, `PHASE`, `CNT`, `WIDX`,
feedback queues). -/
structure Channel.SameSignal (c d : Channel) : Prop where
  hp : d.hp.z = c.hp.z
  lp : d.lp.z = c.lp.z
  pre : c.pre.SameSignal d.pre
  widx : d.mt.widx = c.mt.widx
  buf : d.mt.buf = c.mt.buf
  ed : c.ed.SameSignal d.ed
  line : ∀ j : Fin 12, c.line[j].SameSignal d.line[j]

/-! ## Finite gains (48_channel.md R329: "let every configuration register be finite") -/

/-- The coefficients of a shelf are finite. -/
def Shelf.Tame (u : Shelf) : Prop :=
  isFinite u.coeffs.b0 = true ∧ isFinite u.coeffs.b1 = true ∧ isFinite u.coeffs.b2 = true ∧
  isFinite u.coeffs.a1 = true ∧ isFinite u.coeffs.a2 = true

/-- The gains of the taps are finite and their positions lie between `i` and `i + 1` (46_multitap.md R271). -/
structure Multitap.Tame (u : Multitap) : Prop where
  gain : ∀ i, i < Config.maxTaps → isFinite (memRead u.tapGain i) = true
  pos : ∀ i : Nat, i < Config.maxTaps → inRange (itof i) (itof (i + 1 : Nat)) (memRead u.tapPos i) = true

/-- A channel with legal registers, no stale derived value, and finite gains wherever the spec leaves them to a free
function: the premises of R329 on the configuration. -/
structure Channel.Tame (cfg : Config.Params) (c : Channel) : Prop where
  legal : c.Legal
  coherent : c.Coherent cfg
  ed : c.ed.Ranged
  df : ∀ j : Fin 12, c.line[j].df.Ranged
  mt : c.mt.Tame
  fb : ∀ j : Fin 12, isFinite c.line[j].fb = true
  ls : ∀ j : Fin 12, c.line[j].ls.Tame
  hs : ∀ j : Fin 12, c.line[j].hs.Tame

end Machine

end Sys2Proof
end

