-- ==== Sys2Proof/Certificates/Slice0/Obligations.lean ====
section
/-! DEFINITION. The statements about the machine, for the provers. A command of port `A` is given by `s.port = .A`, its unit
by `unitOf u`; `Untouched s t regs mems` is the frame: every register outside `regs` and every memory word outside `mems`
reads as before. -/

open Sys2Proof Sys2Proof.Machine

/-! ## Encoding -/

/-- R100, R106: every command is read back from its word, whatever its fields hold. -/
def Obligations.DecodeOfEncode : Prop := ∀ i : Instr, decode (encode i) = .ok i

/-- R106, R107, R108: no two words are the same command ("no encoding that executes as a named other command"). -/
def Obligations.EncodeOfDecode : Prop := ∀ (w : Command) (i : Instr), decode w = .ok i → encode i = w

/-- R103, R104: the addresses of R104 name each unit instance once, and no other address names a unit. -/
def Obligations.UnitAddressBijection : Prop :=
  (∀ r : UnitRef, unitOf (unitAddr r) = some r) ∧
  (∀ (u : UnitAddr) (r : UnitRef), unitOf u = some r → unitAddr r = u)

/-- The example words of 30_encoding.md R112, 41_onepole.md R154, 44_diffuser.md R230, 47_delayline.md R295, and the
example addresses of R104. -/
def Obligations.WordsDecode : Prop :=
  decode 0x214040003F800000#64 = .ok (.lpStep 0x4040#16 0x3F800000#32) ∧
  decode 0xA00020023E800000#64 = .ok (.enSetP 0x0020#16 2#8 0x3E800000#32) ∧
  decode 0x0200000000000000#64 = .ok (.rdreg 0x0000#16 0#8) ∧
  decode 0x22B6A00000000000#64 = .ok (.lpClr 0xB6A0#16) ∧
  decode 0x56B640003E800000#64 = .ok (.dfSetX 0xB640#16 0x3E800000#32) ∧
  decode 0x8160000000000018#64 = .ok (.dlSetFlags 0x6000#16 0x00000018#32) ∧
  unitOf 0x4040#16 = some (.lp1 (.chan .L)) ∧
  unitOf 0x80B3#16 = some (.map ⟨.early .R, 3⟩) ∧
  unitOf 0x6850#16 = some (.map ⟨.line .L 4, 0⟩) ∧
  unitOf 0xB6A0#16 = some (.lp1 (.damp .R 11)) ∧
  unitOf 0x00A2#16 = some (.io 2) ∧
  unitOf 0x0020#16 = some .eng

/-- R107: of the words with the opcode of a command, those that are commands are the ones with zero in every field its
format does not use; every other word raises `Fault(ILLOP)`. -/
def Obligations.UnusedFieldsIllegal : Prop :=
  ∀ (i : Instr) (w : Command), opcodeField w = i.opcode →
    ((∃ j, decode w = .ok j) ↔ w &&& i.format.mask = i.opcode.setWidth 64 <<< 56) ∧
    (w &&& i.format.mask ≠ i.opcode.setWidth 64 <<< 56 → ∀ (s : State) (p : Port) (q : List Event),
      s.queue = .command p w :: q → step s = .next ((s.accept p w q).raise .illOp))

/-- R108: the opcodes listed there, and no others, are illegal and raise `Fault(ILLOP)`, whatever else the word holds. -/
def Obligations.IllegalOpcodes : Prop :=
  ∀ w : Command,
    let op := (opcodeField w).toNat
    let listed := (0x07 ≤ op ∧ op ≤ 0x0F) ∨ (0x16 ≤ op ∧ op ≤ 0x1F) ∨ op = 0x23 ∨ (0x27 ≤ op ∧ op ≤ 0x2F) ∨
      (0x34 ≤ op ∧ op ≤ 0x3F) ∨ (0x48 ≤ op ∧ op ≤ 0x4F) ∨ (0x5B ≤ op ∧ op ≤ 0x5F) ∨ (0x65 ≤ op ∧ op ≤ 0x6F) ∨
      (0x77 ≤ op ∧ op ≤ 0x7F) ∨ (0x84 ≤ op ∧ op ≤ 0x8F) ∨ (0x9A ≤ op ∧ op ≤ 0x9F) ∨ (0xA5 ≤ op ∧ op ≤ 0xAF) ∨ 0xB4 ≤ op
    (listed ↔ decode w = .error (.unknownOpcode (opcodeField w))) ∧
    (listed → ∀ (s : State) (p : Port) (q : List Event),
      s.queue = .command p w :: q → step s = .next ((s.accept p w q).raise .illOp))

/-! ## One step -/

/-- A step runs the command at the head of the queue: `exec` of the decoded command on the state with the port and the
word set and the event taken; a word that is no command raises `Fault(ILLOP)`; the reset input gives the reset state with
the remaining events; with no event nothing changes. The queue is the model's own (log entry 1). -/
def Obligations.StepRunsCommand : Prop :=
  ∀ s : State,
    (∀ p w q i, s.queue = .command p w :: q → decode w = .ok i →
      step s = exec i { s with port := p, word := w, queue := q }) ∧
    (∀ p w q e, s.queue = .command p w :: q → decode w = .error e →
      step s = .next (State.raise { s with port := p, word := w, queue := q } .illOp)) ∧
    (∀ q, s.queue = .resetInput :: q →
      step s = .next { State.reset with port := s.port, word := s.word, queue := q }) ∧
    (s.queue = [] → step s = .next s)

/-- R447: every command terminates, and no state and no event stops the machine. -/
def Obligations.EveryStepAnswersNext : Prop := ∀ s : State, ∃ t, step s = .next t

/-! ## Faults and ports -/

/-- R110: the first check that fails, in the order opcode, unused fields, port, unit, own checks, decides the fault, and no
later check and no effect is made; a word that passes them all has the effect of its command and raises nothing (only
`RESET` and `CLRF` then touch the fault registers). -/
def Obligations.DecodeOrder : Prop :=
  ∀ (s : State) (p : Port) (w : Command) (q : List Event), s.queue = .command p w :: q →
    (∀ c, wordFault p w = some c → step s = .next ((s.accept p w q).raise c)) ∧
    (wordFault p w = none → ∃ i t, decode w = .ok i ∧ step s = exec i (s.accept p w q) ∧ step s = .next t ∧
      (i ≠ .reset → i ≠ .clrf → t.sys = s.sys))

/-- R402: what a fault records and that it changes nothing else: no register, no memory, no `RES`, and the next event is
taken as if the faulting word had not been issued. -/
def Obligations.FaultEffect : Prop :=
  ∀ (s : State) (p : Port) (w : Command) (q : List Event) (c : FaultCause), s.queue = .command p w :: q →
    wordFault p w = some c →
    ∃ t, step s = .next t ∧
      t.sys.status = s.sys.status ||| (1#32 <<< ((causeCode c).toNat - 1)) ∧
      t.sys.faultCode = causeCode c ∧ t.sys.faultCmd = w ∧ t.queue = q ∧
      (∀ r n, ¬ (r = .sys ∧ n ≤ 3) → readReg t r n = readReg s r n) ∧
      (∀ r m i, readMem t r m i = readMem s r m i)

/-- R411: besides reset, `CLRF` is the only way to clear a `STATUS` bit. -/
def Obligations.StatusSticky : Prop :=
  ∀ (s t : State) (k : Nat), step s = .next t → s.sys.status.getLsbD k = true →
    t.sys.status.getLsbD k = true ∨ (∃ q, s.queue = .resetInput :: q) ∨
    (∃ w q, s.queue = .command .A w :: q ∧ (decode w = .ok .clrf ∨ decode w = .ok .reset))

/-- R417: port `C` writes only `NP[0..9]`, `DIRTY`, `RES[C]` and the fault registers, and no memory. -/
def Obligations.PortCWrites : Prop :=
  ∀ (i : Instr) (s t : State), s.port = .C → exec i s = .next t →
    Untouched s t (fun r n => r = .eng ∨ (r = .sys ∧ n ≠ resNumber .A)) noMem

/-- R401: no command but `RDREG` of the fault registers depends on them: two machines that differ only there (and in the
word they record) stay so. -/
def Obligations.FaultsInvisible : Prop :=
  ∀ (i : Instr) (s t : State) (f : Sys) (w : Command),
    (∀ u sub, i = .rdreg u sub → unitOf u = some .sys → 4 ≤ sub.toNat) →
    exec i s = .next t →
    ∃ g, exec i { s with sys := f, word := w } = .next { t with sys := g, word := w }

/-! ## System commands -/

/-- R380, R381, R382: `NOP` changes nothing on either port; `CLRF` clears the three fault registers and nothing else;
`RESET` gives the reset state, whatever the state was (the model's own fields apart, log entry 1). -/
def Obligations.SystemCommands : Prop :=
  ∀ s : State,
    exec .nop s = .next s ∧
    (s.port = .A →
      (∃ t, exec .clrf s = .next t ∧ t.sys = { status := 0, faultCode := 0, faultCmd := 0 } ∧
        Untouched s t (fun r n => r = .sys ∧ n ≤ 3) noMem) ∧
      exec .reset s = .next { State.reset with port := s.port, word := s.word, queue := s.queue }) ∧
    (s.port = .C → exec .clrf s = .next (s.raise .illPort) ∧ exec .reset s = .next (s.raise .illPort))

/-- R430, R431: what reset leaves in the registers and memories whose value the spec states: the ten patterns of `NP`, the
input weight 1.0 and the cross seeds 0.75 and 0.25 (R34, R348, 95_test_vectors.md section 1.8) among them. -/
def Obligations.ResetValues : Prop :=
  (∀ n, n ≤ 5 → readReg State.reset .sys n = some 0#32) ∧
  (∀ k : Fin 10, readReg State.reset .eng k.val = some ((#v[0x00000000#32, 0x3F000000#32, 0x3F000000#32, 0x3F333333#32,
    0x3E99999A#32, 0x00000000#32, 0x3F800000#32, 0x3F000000#32, 0x3E99999A#32, 0x3E99999A#32] : Vector F 10)[k])) ∧
  (∀ sd, readReg State.reset (.chan sd) 0 = some 0x3F800000#32) ∧
  readReg State.reset (.chan .L) 7 = some 0x3F400000#32 ∧ readReg State.reset (.chan .R) 7 = some 0x3E800000#32 ∧
  State.reset.left.SameSeeds State.reset.right ∧
  readReg State.reset .eng 10 = some 0#32 ∧
  (∀ n, n ≤ 1 → readReg State.reset .rng n = some 0#32) ∧
  (∀ n, n ≤ 2 → readReg State.reset .rbuf n = some 0#32) ∧
  (∀ i, i < Config.rbCap → readMem State.reset .rbuf 0 i = some 0#32) ∧
  (∀ b i, i < Config.block → readMem State.reset (.io b) 0 i = some 0#32) ∧
  (∀ (r : UnitRef) (m i : Nat), r.cls.sampleMem m = true → i < r.cls.memWords m →
    readMem State.reset r m i = some 0#32) ∧
  (∀ (r : UnitRef) (n : Nat), r.cls.clearedReg n = true → readReg State.reset r n = some 0#32) ∧
  (∀ r, readReg State.reset (.map r) 5 = some 0#32 ∧ readReg State.reset (.map r) 6 = some 0#32 ∧
    readReg State.reset (.map r) 11 = some 0#32) ∧
  (∀ r, readReg State.reset (.mdly r) 5 = some 0#32 ∧ readReg State.reset (.mdly r) 6 = some 0#32 ∧
    readReg State.reset (.mdly r) 11 = some 0#32) ∧
  (∀ sd, readReg State.reset (.mtap sd) 5 = some 0#32)

/-- R385: `RDREG` gives the register on either port and changes nothing but `RES[p]`; a number that is no register of the
class raises `Fault(IDXERR)`; a unit without registers, or none, raises `Fault(ILLUNIT)`. -/
def Obligations.ReadRegister : Prop :=
  ∀ (s : State) (u : UnitAddr) (sub : SubField),
    (∀ r : UnitRef, unitOf u = some r → r.cls.hasRegs = true →
      (r.cls.hasReg sub.toNat = true → ∃ t v, exec (.rdreg u sub) s = .next t ∧
        readReg s r sub.toNat = some v ∧ t.res s.port = v ∧ Untouched s t (resReg s) noMem) ∧
      (r.cls.hasReg sub.toNat = false → exec (.rdreg u sub) s = .next (s.raise .idxErr))) ∧
    ((∀ r : UnitRef, unitOf u = some r → r.cls.hasRegs = false) → exec (.rdreg u sub) s = .next (s.raise .illUnit))

/-- R386: `RDMEM` gives the word and changes nothing but `RES[p]`; a memory number or an index out of range raises
`Fault(IDXERR)`, a unit without a memory `Fault(ILLUNIT)`; port `A` only. -/
def Obligations.ReadMemory : Prop :=
  ∀ (s : State) (u : UnitAddr) (sub : SubField) (i : Word),
    (s.port = .A →
      (∀ r : UnitRef, unitOf u = some r → r.cls.hasMems = true →
        (i.toNat < r.cls.memWords sub.toNat → ∃ t v, exec (.rdmem u sub i) s = .next t ∧
          readMem s r sub.toNat i.toNat = some v ∧ t.resA = v ∧ Untouched s t (resReg s) noMem) ∧
        (¬ i.toNat < r.cls.memWords sub.toNat → exec (.rdmem u sub i) s = .next (s.raise .idxErr))) ∧
      ((∀ r : UnitRef, unitOf u = some r → r.cls.hasMems = false) →
        exec (.rdmem u sub i) s = .next (s.raise .illUnit))) ∧
    (s.port = .C → exec (.rdmem u sub i) s = .next (s.raise .illPort))

/-- R383, R384: `IO.WR` writes one word of one bank, `IO.RD` reads one; an index of 128 or more raises `Fault(IDXERR)`;
port `A` only. -/
def Obligations.BlockMemory : Prop :=
  ∀ (s : State) (u : UnitAddr) (sub : SubField) (v : Word),
    (s.port = .A → ∀ b : Fin 4, unitOf u = some (.io b) →
      (sub.toNat < 128 →
        (Memory.wf s.io[b] = true → ∃ t, exec (.ioWr u sub v) s = .next t ∧
          readMem t (.io b) 0 sub.toNat = some v ∧
          Untouched s t noReg (fun r m i => r = .io b ∧ m = 0 ∧ i = sub.toNat)) ∧
        (∃ t, exec (.ioRd u sub) s = .next t ∧ readMem s (.io b) 0 sub.toNat = some t.resA ∧
          Untouched s t (resReg s) noMem)) ∧
      (128 ≤ sub.toNat →
        exec (.ioWr u sub v) s = .next (s.raise .idxErr) ∧ exec (.ioRd u sub) s = .next (s.raise .idxErr))) ∧
    (s.port = .C → exec (.ioWr u sub v) s = .next (s.raise .illPort) ∧ exec (.ioRd u sub) s = .next (s.raise .illPort))

/-! ## Random numbers -/

/-- R136, R137: the generator's register after each command, and the value `RNG.NEXT` returns. -/
def Obligations.GeneratorCommands : Prop :=
  ∀ (s : State) (u : UnitAddr) (seed : Word), s.port = .A → unitOf u = some .rng →
    (∃ t, exec (.rngSeed u seed) s = .next t ∧ t.rng.xHi = 0#32 ∧ t.rng.xLo = seed ∧
      Untouched s t (fun r n => r = .rng ∧ n ≤ 1) noMem) ∧
    (∃ t, exec (.rngNext u) s = .next t ∧
      let x := (Config.chip.lcgA.toNat * (s.rng.xHi ++ s.rng.xLo).toNat + Config.chip.lcgC.toNat) % 2 ^ 32
      t.rng.xHi = 0#32 ∧ t.rng.xLo = BitVec.ofNat 32 x ∧ t.resA = u32ToUnit (BitVec.ofNat 32 x) ∧
      Untouched s t (fun r n => (r = .rng ∧ n ≤ 1) ∨ (r = .sys ∧ n = 4)) noMem)

/-- R138 to R141: the registers and the words of the random buffer; words at the count and above keep their value. -/
def Obligations.RandomBufferCommands : Prop :=
  ∀ (s : State) (u : UnitAddr) (v : Word), s.port = .A → unitOf u = some .rbuf →
    (∃ t, exec (.rbSetSeed u v) s = .next t ∧ t.rbuf = { s.rbuf with seed := v } ∧
      Untouched s t (fun r n => r = .rbuf ∧ n = 0) noMem) ∧
    (fle fzero v = true ∧ fle v fone = true → ∃ t, exec (.rbSetX u v) s = .next t ∧
      t.rbuf = { s.rbuf with xseed := v } ∧ Untouched s t (fun r n => r = .rbuf ∧ n = 1) noMem) ∧
    (¬ (fle fzero v = true ∧ fle v fone = true) → exec (.rbSetX u v) s = .next (s.raise .cfgErr)) ∧
    (v.toNat ≤ 768 → Memory.wf s.rbuf.val = true →
      (∃ t, exec (.rbGen u v) s = .next t ∧ t.rbuf.count = v.toNat ∧
        memReadList t.rbuf.val 0 v.toNat = generate Config.chip s.rbuf.seed v.toNat ∧
        Untouched s t (fun r n => r = .rbuf ∧ n = 2) (fun r m i => r = .rbuf ∧ m = 0 ∧ i < v.toNat)) ∧
      (∃ t, exec (.rbGenX u v) s = .next t ∧ t.rbuf.count = v.toNat ∧
        memReadList t.rbuf.val 0 v.toNat = generateCross Config.chip s.rbuf.seed s.rbuf.xseed v.toNat ∧
        Untouched s t (fun r n => r = .rbuf ∧ n = 2) (fun r m i => r = .rbuf ∧ m = 0 ∧ i < v.toNat))) ∧
    (768 < v.toNat →
      exec (.rbGen u v) s = .next (s.raise .cfgErr) ∧ exec (.rbGenX u v) s = .next (s.raise .cfgErr))

/-- R132, R134, R137: only the low 32 bits of the register matter; a longer list extends a shorter one; and the `n`-th
`RNG.NEXT` after `RNG.SEED` returns element `n - 1` of the list of that seed. -/
def Obligations.GeneratorSequence : Prop :=
  (∀ (cfg : Config.Params) (x x' : BitVec 64), x.toNat % 2 ^ 32 = x'.toNat % 2 ^ 32 → lcgNext cfg x = lcgNext cfg x') ∧
  (∀ (cfg : Config.Params) (seed : Word) (n m : Nat), n ≤ m →
    (generate cfg seed m).take n = generate cfg seed n ∧ (generate cfg seed n).length = n) ∧
  (∀ (s : State) (u : UnitAddr) (seed : Word) (n : Nat), s.port = .A → unitOf u = some .rng → 1 ≤ n →
    ∃ t, runCommands (.rngSeed u seed :: List.replicate n (.rngNext u)) s = .next t ∧
      (generate Config.chip seed n)[n - 1]? = some t.resA)

/-- R135: at cross seed 0 the list of the seed, at cross seed 1 the list of its complement, bit for bit. -/
def Obligations.CrossSeedEnds : Prop :=
  ∀ (cfg : Config.Params) (seed : Word) (c : F) (n : Nat),
    (∀ i, i < n → ∃ a b, (generate cfg seed n)[i]? = some a ∧ (generate cfg (~~~seed) n)[i]? = some b ∧
      (generateCross cfg seed c n)[i]? = some (fadd (fmul a (fsub fone c)) (fmul b c))) ∧
    generateCross cfg seed fzero n = generate cfg seed n ∧
    generateCross cfg seed fone n = generate cfg (~~~seed) n

/-- R11, R12: every operation on finite values gives its exact result rounded once, to nearest with ties to even; an exact
sum of zero is `-0` for two negative operands and `+0` else; the square root of a negative value is a NaN and keeps a zero;
`ftoi_floor` is the greatest integer not above the value. The first clause is the rounding itself, of any ratio. `magUnits` and `toUnits` are values in units of 2^-149; what
binary32 is, log entry 8 (PRESUMED). -/
def Obligations.RoundNearest : Prop :=
  (∀ (neg : Bool) (num den : Nat), 0 < den → RoundedTo (withSign neg (roundMag num den)) neg num den) ∧
  (∀ x y : F, isFinite x = true → isFinite y = true →
    let sum := toUnits x + toUnits y
    let diff := toUnits x - toUnits y
    (sum ≠ 0 → RoundedTo (fadd x y) (decide (sum < 0)) sum.natAbs 1) ∧
    (sum = 0 → fadd x y = if signBit x = true ∧ signBit y = true then 0x80000000#32 else 0x00000000#32) ∧
    (diff ≠ 0 → RoundedTo (fsub x y) (decide (diff < 0)) diff.natAbs 1) ∧
    (diff = 0 → fsub x y = if signBit x = true ∧ signBit y = false then 0x80000000#32 else 0x00000000#32) ∧
    RoundedTo (fmul x y) (signBit x != signBit y) (magUnits x * magUnits y) (2 ^ 149) ∧
    (isZero y = false → RoundedTo (fdiv x y) (signBit x != signBit y) (magUnits x * 2 ^ 149) (magUnits y))) ∧
  (∀ n : Int, (n ≠ 0 → RoundedTo (itof n) (decide (n < 0)) (n.natAbs * 2 ^ 149) 1) ∧ (n = 0 → itof n = 0x00000000#32)) ∧
  (∀ x : F, isFinite x = true →
    (isZero x = true → fsqrt x = x) ∧
    (isZero x = false → signBit x = true → isNaN (fsqrt x) = true) ∧
    (isZero x = false → signBit x = false → RootedTo (fsqrt x) (magUnits x * 2 ^ 149)) ∧
    ftoiFloor x * 2 ^ 149 ≤ toUnits x ∧ toUnits x < (ftoiFloor x + 1) * 2 ^ 149)

/-! ## One-pole filters -/

/-- R152 to R159: the cutoff commands, the two steps with their silence branch, and the clears. -/
def Obligations.OnePoleCommands : Prop :=
  ∀ (s : State) (u : UnitAddr) (v : Word), s.port = .A →
    (∀ r, unitOf u = some (.lp1 r) →
      (isFinite v = true → ∃ t, exec (.lpSetFc u v) s = .next t ∧
        t.lp1 r = { s.lp1 r with fc := v, b0 := (opfCoeffs Config.chip v).1, a1 := (opfCoeffs Config.chip v).2 } ∧
        Untouched s t (fun q n => q = .lp1 r ∧ n ≤ 2) noMem) ∧
      (isFinite v = false → exec (.lpSetFc u v) s = .next (s.raise .cfgErr)) ∧
      (∃ t, exec (.lpStep u v) s = .next t ∧
        let z := if feq v fzero && flt (s.lp1 r).z (opfEpsLp Config.chip) then fzero
          else fadd (fmul (s.lp1 r).b0 v) (fmul (s.lp1 r).a1 (s.lp1 r).z)
        t.lp1 r = { s.lp1 r with z := z } ∧ t.resA = z ∧
        Untouched s t (fun q n => (q = .lp1 r ∧ n = 3) ∨ (q = .sys ∧ n = 4)) noMem) ∧
      (∃ t, exec (.lpClr u) s = .next t ∧ t.lp1 r = { s.lp1 r with z := fzero } ∧
        Untouched s t (fun q n => q = .lp1 r ∧ n = 3) noMem)) ∧
    (∀ sd, unitOf u = some (.hp1 sd) →
      (isFinite v = true → ∃ t, exec (.hpSetFc u v) s = .next t ∧
        t.hp1 sd = { s.hp1 sd with fc := v, b0 := (opfCoeffs Config.chip v).1, a1 := (opfCoeffs Config.chip v).2 } ∧
        Untouched s t (fun q n => q = .hp1 sd ∧ n ≤ 2) noMem) ∧
      (isFinite v = false → exec (.hpSetFc u v) s = .next (s.raise .cfgErr)) ∧
      (∃ t, exec (.hpStep u v) s = .next t ∧
        let y := fadd (fmul (s.hp1 sd).b0 v) (fmul (s.hp1 sd).a1 (s.hp1 sd).z)
        let silent := feq v fzero && flt (s.hp1 sd).z (opfEpsHp Config.chip)
        t.hp1 sd = { s.hp1 sd with z := if silent then (s.hp1 sd).z else y } ∧
        t.resA = (if silent then fzero else fsub v y) ∧
        Untouched s t (fun q n => (q = .hp1 sd ∧ n = 3) ∨ (q = .sys ∧ n = 4)) noMem) ∧
      (∃ t, exec (.hpClr u) s = .next t ∧ t.hp1 sd = { s.hp1 sd with z := fzero } ∧
        Untouched s t (fun q n => q = .hp1 sd ∧ n = 3) noMem))

/-- R160, the silence law: from a state below the epsilon, any number of zero samples of either sign returns `+0` each
time; the low-pass then holds `+0`, the high-pass keeps its state. That both epsilons are positive is required by R158 and
R159 and holds in the model by log entry 5 (DESIGN CHOICE); R160 has it as a condition. -/
def Obligations.SilenceLaw : Prop :=
  flt fzero (opfEpsLp Config.chip) = true ∧ flt fzero (opfEpsHp Config.chip) = true ∧
  ∀ (s : State) (u : UnitAddr) (v : Word) (vs : List Word), s.port = .A → feq v fzero = true →
    (∀ x, x ∈ vs → feq x fzero = true) →
    (∀ r, unitOf u = some (.lp1 r) → flt (s.lp1 r).z (opfEpsLp Config.chip) = true →
      ∃ t, runCommands ((vs ++ [v]).map (Instr.lpStep u)) s = .next t ∧ t.resA = 0x00000000#32 ∧
        t.lp1 r = { s.lp1 r with z := 0x00000000#32 }) ∧
    (∀ sd, unitOf u = some (.hp1 sd) → flt (s.hp1 sd).z (opfEpsHp Config.chip) = true →
      ∃ t, runCommands ((vs ++ [v]).map (Instr.hpStep u)) s = .next t ∧ t.resA = 0x00000000#32 ∧
        t.hp1 sd = s.hp1 sd)

/-! ## Shelf filters -/

/-- R171, R172, R175 to R178: frequency and gain are set independently, the gain clamped to 60 dB either way; the step is
the recurrence of R172, summed from left to right; the clear zeroes the history. -/
def Obligations.ShelfCommands : Prop :=
  ∀ (s : State) (u : UnitAddr) (v : Word) (r : ShelfRef), s.port = .A → unitOf u = some (.shelf r) →
    (isFinite v = true → ∃ t, exec (.shSetF u v) s = .next t ∧
      t.shelf r = { s.shelf r with
        freq := v, coeffs := Config.chip.shelfCoeffs r.kind v (s.shelf r).gain } ∧
      Untouched s t (fun q n => q = .shelf r ∧ (n = 0 ∨ 2 ≤ n ∧ n ≤ 6)) noMem) ∧
    (isFinite v = false → exec (.shSetF u v) s = .next (s.raise .cfgErr)) ∧
    (isNaN v = false → ∃ t, exec (.shSetG u v) s = .next t ∧
      let g := if flt v 0xC2700000#32 then 0xC2700000#32 else if flt 0x42700000#32 v then 0x42700000#32 else v
      t.shelf r = { s.shelf r with gain := g, coeffs := Config.chip.shelfCoeffs r.kind (s.shelf r).freq g } ∧
      inRange 0xC2700000#32 0x42700000#32 g = true ∧
      Untouched s t (fun q n => q = .shelf r ∧ 1 ≤ n ∧ n ≤ 6) noMem) ∧
    (isNaN v = true → exec (.shSetG u v) s = .next (s.raise .cfgErr)) ∧
    (∃ t, exec (.shStep u v) s = .next t ∧
      let f := s.shelf r
      let y := fsub (fsub (fadd (fadd (fmul f.coeffs.b0 v) (fmul f.coeffs.b1 f.x1)) (fmul f.coeffs.b2 f.x2))
        (fmul f.coeffs.a1 f.y1)) (fmul f.coeffs.a2 f.y2)
      t.shelf r = { f with x1 := v, x2 := f.x1, y1 := y, y2 := f.y1 } ∧ t.resA = y ∧
      Untouched s t (fun q n => (q = .shelf r ∧ 7 ≤ n ∧ n ≤ 10) ∨ (q = .sys ∧ n = 4)) noMem) ∧
    (∃ t, exec (.shClr u) s = .next t ∧
      t.shelf r = { s.shelf r with x1 := 0#32, x2 := 0#32, y1 := 0#32, y2 := 0#32 } ∧
      Untouched s t (fun q n => q = .shelf r ∧ 7 ≤ n ∧ n ≤ 10) noMem)

/-! ## All-pass -/

/-- R199 to R204: the settings of an all-pass; a new delay or amount recomputes the taps at the present phase, nothing else
moves; an operand outside its range raises `Fault(CFGERR)`. -/
def Obligations.AllpassSettings : Prop :=
  ∀ (s : State) (u : UnitAddr) (v : Word) (r : MapRef), s.port = .A → unitOf u = some (.map r) →
    let f := s.map r
    (1 ≤ v.toNat ∧ v.toNat ≤ 19198 → ∃ t, exec (.apSetDly u v) s = .next t ∧
      t.map r = { f with core := { f.core with
        dly := v.toNat, taps := tapCalc Config.chip v.toNat f.core.modA f.core.phase } } ∧
      Untouched s t (fun q n => q = .map r ∧ (n = 0 ∨ 7 ≤ n ∧ n ≤ 10)) noMem) ∧
    (¬ (1 ≤ v.toNat ∧ v.toNat ≤ 19198) → exec (.apSetDly u v) s = .next (s.raise .cfgErr)) ∧
    (isFinite v = true → ∃ t, exec (.apSetFb u v) s = .next t ∧ t.map r = { f with fb := v } ∧
      Untouched s t (fun q n => q = .map r ∧ n = 1) noMem) ∧
    (isFinite v = false → exec (.apSetFb u v) s = .next (s.raise .cfgErr)) ∧
    (fle fzero v = true ∧ fle v (itof 19200) = true → ∃ t, exec (.apSetModA u v) s = .next t ∧
      t.map r = { f with core := { f.core with
        modA := v, taps := tapCalc Config.chip f.core.dly v f.core.phase } } ∧
      Untouched s t (fun q n => q = .map r ∧ (n = 2 ∨ 7 ≤ n ∧ n ≤ 10)) noMem) ∧
    (¬ (fle fzero v = true ∧ fle v (itof 19200) = true) → exec (.apSetModA u v) s = .next (s.raise .cfgErr)) ∧
    (fle fnegOne v = true ∧ fle v fone = true → ∃ t, exec (.apSetModR u v) s = .next t ∧
      t.map r = { f with core := { f.core with modR := v } } ∧
      Untouched s t (fun q n => q = .map r ∧ n = 3) noMem) ∧
    (¬ (fle fnegOne v = true ∧ fle v fone = true) → exec (.apSetModR u v) s = .next (s.raise .cfgErr)) ∧
    (v.toNat ≤ 1 →
      (∃ t, exec (.apSetInterp u v) s = .next t ∧ t.map r = { f with flags := putBit f.flags 0 (v == 1#32) } ∧
        Untouched s t (fun q n => q = .map r ∧ n = 4) noMem) ∧
      (∃ t, exec (.apSetModEn u v) s = .next t ∧ t.map r = { f with flags := putBit f.flags 1 (v == 1#32) } ∧
        Untouched s t (fun q n => q = .map r ∧ n = 4) noMem)) ∧
    (1 < v.toNat →
      exec (.apSetInterp u v) s = .next (s.raise .cfgErr) ∧ exec (.apSetModEn u v) s = .next (s.raise .cfgErr))

/-- R197, R198, R205, R206: one sample through an all-pass, read before write, the taps updated when `CNT` has reached 8 in
the modulated mode and left alone in the other; and the clear of its buffer. -/
def Obligations.AllpassStep : Prop :=
  ∀ (s : State) (u : UnitAddr) (v : Word) (r : MapRef), s.port = .A → unitOf u = some (.map r) →
    let f := s.map r
    (∃ t, exec (.apStep u v) s = .next t ∧
      let phase := nextPhase f.core.phase f.core.modR
      let c := if flagModEn f.flags = true ∧ 8 ≤ f.core.cnt then
          { f.core with phase := phase, cnt := 0, taps := tapCalc Config.chip f.core.dly f.core.modA phase }
        else f.core
      let tap := fun d : Nat => memTap f.core.buf f.core.widx d 19200
      let delayed := if flagModEn f.flags then
          (if flagInterp f.flags then fadd (fmul (tap c.taps.delayA) c.taps.gainA) (fmul (tap c.taps.delayB) c.taps.gainB)
           else tap c.taps.delayA)
        else tap f.core.dly
      let w := fadd v (fmul f.fb delayed)
      t.map r = { f with core := { c with
        cnt := if flagModEn f.flags then c.cnt + 1 else c.cnt
        buf := memWrite f.core.buf f.core.widx w
        widx := (f.core.widx + 1) % 19200 } } ∧
      t.resA = fsub delayed (fmul f.fb w) ∧
      Untouched s t (fun q n => (q = .map r ∧ 5 ≤ n ∧ n ≤ 11) ∨ (q = .sys ∧ n = 4))
        (fun q m i => q = .map r ∧ m = 0 ∧ i = f.core.widx)) ∧
    (∃ t, exec (.apClr u) s = .next t ∧
      (Memory.wf f.core.buf = true → ∀ i, i < 19200 → readMem t (.map r) 0 i = some 0#32) ∧
      Untouched s t noReg (fun q m i => q = .map r ∧ m = 0 ∧ i < 19200))

/-- R207, the passthrough law: with a zero feedback and finite values, the word written equals the input and the value
returned equals the value read, bit for bit but for the sign of a zero; with a value that is not finite the law fails with
a NaN. -/
def Obligations.Passthrough : Prop :=
  ∀ (s : State) (u : UnitAddr) (v : Word) (r : MapRef), s.port = .A → unitOf u = some (.map r) →
    isZero (s.map r).fb = true → Memory.wf (s.map r).core.buf = true →
    ∃ t w, exec (.apStep u v) s = .next t ∧
      let delayed := ((s.map r).read Config.chip).1
      w = memRead (t.map r).core.buf (s.map r).core.widx ∧
      (isFinite delayed = true → isFinite v = true →
        feq w v = true ∧ feq t.resA delayed = true ∧ (v ≠ 0x80000000#32 → w = v) ∧
        (delayed ≠ 0x80000000#32 → t.resA = delayed)) ∧
      (¬ (isFinite delayed = true ∧ isFinite v = true) → isNaN t.resA = true)

/-- R74, R260: after any samples through a modulated delay, a read at delay `d`, 1 to the number of samples and at most the
capacity, gives the sample of `d` steps ago. -/
def Obligations.CircularBuffer : Prop :=
  ∀ (cfg : Config.Params) (u : ModDelay) (vs : List F) (d : Nat), Memory.wf u.buf = true → u.widx < Config.dlCap →
    1 ≤ d → d ≤ vs.length → d ≤ Config.dlCap →
    some (memTap (u.feed cfg vs).buf (u.feed cfg vs).widx d Config.dlCap) = vs[vs.length - d]? ∧
    (u.feed cfg vs).widx = (u.widx + vs.length) % Config.dlCap

/-- R260, R441: from any `CNT` up to 8, the first `8 - CNT` samples leave phase and taps as they are, the next one advances
the phase by one period and recomputes the taps from it; and over any number of samples there is one such update for every 8
counted, with the taps those of the last. -/
def Obligations.ModulationPeriod : Prop :=
  ∀ (cfg : Config.Params) (u : ModDelay) (vs : List F), u.cnt ≤ 8 →
    (vs.length ≤ 8 - u.cnt → (u.feed cfg vs).phase = u.phase ∧ (u.feed cfg vs).taps = u.taps ∧
      (u.feed cfg vs).cnt = u.cnt + vs.length) ∧
    (vs.length = 9 - u.cnt → (u.feed cfg vs).phase = nextPhase u.phase u.modR ∧
      (u.feed cfg vs).taps = tapCalc cfg u.dly u.modA (nextPhase u.phase u.modR) ∧ (u.feed cfg vs).cnt = 1) ∧
    let updates := (u.cnt + vs.length - 1) / 8
    let phase := (fun p => nextPhase p u.modR)^[updates] u.phase
    (u.feed cfg vs).phase = phase ∧
    (u.feed cfg vs).taps = (if updates = 0 then u.taps else tapCalc cfg u.dly u.modA phase) ∧
    (u.feed cfg vs).cnt = u.cnt + vs.length - 8 * updates

/-- R196: for every legal delay and amount, whatever `fsin` and the phase are, tap `a` is at least 1 and below twice the
capacity, tap `b` is the next sample, and the gains are finite with the second in [0, 1). -/
def Obligations.TapRanges : Prop :=
  ∀ (cfg : Config.Params) (dly : Nat) (modA phase : F), delayOk Config.dlCap dly = true →
    modAOk Config.dlCap modA = true →
    let k := tapCalc cfg dly modA phase
    1 ≤ k.delayA ∧ k.delayA < 2 * Config.dlCap ∧ k.delayB = k.delayA + 1 ∧
    fle fzero k.gainB = true ∧ flt k.gainB fone = true ∧
    k.gainA = fsub fone k.gainB ∧ isFinite k.gainA = true

/-- R208 claims `DELAYB <= 2 * DLY` always, by `SIN_RANGE`. In binary32 the clamped amount can round to the delay itself, so
the claim fails in a corner (NOTES.md). -/
def Obligations.TapBoundOfR208 : Prop :=
  ∀ (cfg : Config.Params) (dly : Nat) (modA phase : F),
    (∀ v, isFinite v = true → fle fnegOne (cfg.fsin v) = true ∧ fle (cfg.fsin v) fone = true) → cfg.fsin fzero = fzero →
    delayOk Config.apCap dly = true → modAOk Config.apCap modA = true → fle fzero phase = true → flt phase fone = true →
    (tapCalc cfg dly modA phase).delayB ≤ 2 * dly

/-! ## Diffuser -/

/-- R224, R226, R231, R232: the settings that no random value enters; feedback and flags reach all 12 stages. -/
def Obligations.DiffuserSettings : Prop :=
  ∀ (s : State) (u : UnitAddr) (v : Word) (r : DiffRef), s.port = .A → unitOf u = some (.diff r) →
    let d := s.diff r
    (v.toNat ≤ 12 → ∃ t, exec (.dfSetStages u v) s = .next t ∧ t.diff r = { d with stages := v.toNat } ∧
      Untouched s t (fun q n => q = .diff r ∧ n = 0) noMem) ∧
    (12 < v.toNat → exec (.dfSetStages u v) s = .next (s.raise .cfgErr)) ∧
    (isFinite v = true → ∃ t, exec (.dfSetFb u v) s = .next t ∧ (t.diff r).fb = v ∧
      (∀ k : Fin 12, (t.diff r).stage[k] = { d.stage[k] with fb := v }) ∧
      Untouched s t (fun q n => (q = .diff r ∧ n = 2) ∨ (∃ k, q = .map ⟨r, k⟩ ∧ n = 1)) noMem) ∧
    (isFinite v = false → exec (.dfSetFb u v) s = .next (s.raise .cfgErr)) ∧
    (v.toNat ≤ 1 →
      (∃ t, exec (.dfSetInterp u v) s = .next t ∧ (t.diff r).flags = putBit d.flags 0 (v == 1#32) ∧
        (∀ k : Fin 12, (t.diff r).stage[k] = { d.stage[k] with flags := putBit d.stage[k].flags 0 (v == 1#32) }) ∧
        Untouched s t (fun q n => (q = .diff r ∧ n = 7) ∨ (∃ k, q = .map ⟨r, k⟩ ∧ n = 4)) noMem) ∧
      (∃ t, exec (.dfSetModEn u v) s = .next t ∧ (t.diff r).flags = putBit d.flags 1 (v == 1#32) ∧
        (∀ k : Fin 12, (t.diff r).stage[k] = { d.stage[k] with flags := putBit d.stage[k].flags 1 (v == 1#32) }) ∧
        Untouched s t (fun q n => (q = .diff r ∧ n = 7) ∨ (∃ k, q = .map ⟨r, k⟩ ∧ n = 4)) noMem)) ∧
    (1 < v.toNat →
      exec (.dfSetInterp u v) s = .next (s.raise .cfgErr) ∧ exec (.dfSetModEn u v) s = .next (s.raise .cfgErr))

/-- R223, R225, R227 to R230: a new delay, amount, rate, seed or cross seed is stored and brings `SEEDV` and all 12 stages in
line with the registers; no stage's `FB`, `FLAGS`, `PHASE`, `CNT`, `WIDX` or buffer moves. -/
def Obligations.DiffuserDerivation : Prop :=
  ∀ (s : State) (u : UnitAddr) (v : Word) (r : DiffRef), s.port = .A → unitOf u = some (.diff r) →
    Memory.wf (s.diff r).seedV = true →
    let derives := fun (i : Instr) (n : Nat) (d : Diffuser) => ∃ t, exec i s = .next t ∧
      (t.diff r).stages = d.stages ∧ (t.diff r).dly = d.dly ∧ (t.diff r).fb = d.fb ∧ (t.diff r).modA = d.modA ∧
      (t.diff r).modR = d.modR ∧ (t.diff r).seed = d.seed ∧ (t.diff r).xseed = d.xseed ∧ (t.diff r).flags = d.flags ∧
      (t.diff r).Derived Config.chip ∧ d.SameSignal (t.diff r) ∧
      Untouched s t
        (fun q m => (q = .diff r ∧ m = n) ∨ (∃ k, q = .map ⟨r, k⟩ ∧ (m = 0 ∨ m = 2 ∨ m = 3 ∨ 7 ≤ m ∧ m ≤ 10)))
        (fun q m _ => q = .diff r ∧ m = 1)
    let fails := fun i : Instr => exec i s = .next (s.raise .cfgErr)
    let d := s.diff r
    (1 ≤ v.toNat ∧ v.toNat ≤ 19198 → derives (.dfSetDly u v) 1 { d with dly := v.toNat }) ∧
    (¬ (1 ≤ v.toNat ∧ v.toNat ≤ 19198) → fails (.dfSetDly u v)) ∧
    (fle fzero v = true ∧ fle v (itof 9600) = true → derives (.dfSetModA u v) 3 { d with modA := v }) ∧
    (¬ (fle fzero v = true ∧ fle v (itof 9600) = true) → fails (.dfSetModA u v)) ∧
    (fle 0xBF000000#32 v = true ∧ fle v 0x3F000000#32 = true → derives (.dfSetModR u v) 4 { d with modR := v }) ∧
    (¬ (fle 0xBF000000#32 v = true ∧ fle v 0x3F000000#32 = true) → fails (.dfSetModR u v)) ∧
    derives (.dfSetSeed u v) 5 { d with seed := v } ∧
    (fle fzero v = true ∧ fle v fone = true → derives (.dfSetX u v) 6 { d with xseed := v }) ∧
    (¬ (fle fzero v = true ∧ fle v fone = true) → fails (.dfSetX u v))

/-- R234, R235: the sample runs through the first `STAGES` stages in order, the others keep their state; with no stage the
operand's pattern returns unchanged; and the clear of all 12 buffers. -/
def Obligations.DiffuserStep : Prop :=
  ∀ (s : State) (u : UnitAddr) (v : Word) (r : DiffRef), s.port = .A → unitOf u = some (.diff r) →
    let d := s.diff r
    (∃ t, exec (.dfStep u v) s = .next t ∧
      (∃ x : Nat → F, x 0 = v ∧ t.resA = x 12 ∧ ∀ k : Fin 12,
        (k.val < d.stages → x (k.val + 1) = (mapStep Config.chip d.stage[k] (x k.val)).1 ∧
          (t.diff r).stage[k] = (mapStep Config.chip d.stage[k] (x k.val)).2) ∧
        (d.stages ≤ k.val → x (k.val + 1) = x k.val ∧ (t.diff r).stage[k] = d.stage[k])) ∧
      (d.stages = 0 → t.resA = v ∧ t.diff r = d) ∧
      Untouched s t
        (fun q n => (∃ k : Fin 12, k.val < d.stages ∧ q = .map ⟨r, k⟩ ∧ 5 ≤ n ∧ n ≤ 11) ∨ (q = .sys ∧ n = 4))
        (fun q m i => ∃ k : Fin 12, k.val < d.stages ∧ q = .map ⟨r, k⟩ ∧ m = 0 ∧ i = d.stage[k].core.widx)) ∧
    (∃ t, exec (.dfClr u) s = .next t ∧
      (∀ k : Fin 12, Memory.wf d.stage[k].core.buf = true → ∀ i, i < 19200 →
        readMem t (.map ⟨r, k⟩) 0 i = some 0#32) ∧
      Untouched s t noReg (fun q m i => ∃ k, q = .map ⟨r, k⟩ ∧ m = 0 ∧ i < 19200))

/-! ## Modulated delay -/

/-- R252 to R256, R260: the settings, the step (write first, then the taps, recomputed when `CNT` has reached 8, read with
the cursor at the word just written), and the clear. -/
def Obligations.DelayCommands : Prop :=
  ∀ (s : State) (u : UnitAddr) (v : Word) (r : MdlyRef), s.port = .A → unitOf u = some (.mdly r) →
    let f := s.mdly r
    (1 ≤ v.toNat ∧ v.toNat ≤ 383998 → ∃ t, exec (.mdSetDly u v) s = .next t ∧
      t.mdly r = { f with dly := v.toNat, taps := tapCalc Config.chip v.toNat f.modA f.phase } ∧
      Untouched s t (fun q n => q = .mdly r ∧ (n = 0 ∨ 7 ≤ n ∧ n ≤ 10)) noMem) ∧
    (¬ (1 ≤ v.toNat ∧ v.toNat ≤ 383998) → exec (.mdSetDly u v) s = .next (s.raise .cfgErr)) ∧
    (fle fzero v = true ∧ fle v (itof 384000) = true → ∃ t, exec (.mdSetModA u v) s = .next t ∧
      t.mdly r = { f with modA := v, taps := tapCalc Config.chip f.dly v f.phase } ∧
      Untouched s t (fun q n => q = .mdly r ∧ (n = 2 ∨ 7 ≤ n ∧ n ≤ 10)) noMem) ∧
    (¬ (fle fzero v = true ∧ fle v (itof 384000) = true) → exec (.mdSetModA u v) s = .next (s.raise .cfgErr)) ∧
    (fle fnegOne v = true ∧ fle v fone = true → ∃ t, exec (.mdSetModR u v) s = .next t ∧
      t.mdly r = { f with modR := v } ∧ Untouched s t (fun q n => q = .mdly r ∧ n = 3) noMem) ∧
    (¬ (fle fnegOne v = true ∧ fle v fone = true) → exec (.mdSetModR u v) s = .next (s.raise .cfgErr)) ∧
    (∃ t, exec (.mdStep u v) s = .next t ∧
      let phase := nextPhase f.phase f.modR
      let buf := memWrite f.buf f.widx v
      let c := if 8 ≤ f.cnt then
          { f with buf := buf, phase := phase, cnt := 0, taps := tapCalc Config.chip f.dly f.modA phase }
        else { f with buf := buf }
      let tap := fun d : Nat => memTap buf f.widx d 384000
      t.mdly r = { c with cnt := c.cnt + 1, widx := (f.widx + 1) % 384000 } ∧
      t.resA = fadd (fmul (tap c.taps.delayA) c.taps.gainA) (fmul (tap c.taps.delayB) c.taps.gainB) ∧
      Untouched s t (fun q n => (q = .mdly r ∧ 5 ≤ n ∧ n ≤ 11) ∨ (q = .sys ∧ n = 4))
        (fun q m i => q = .mdly r ∧ m = 0 ∧ i = f.widx)) ∧
    (∃ t, exec (.mdClr u) s = .next t ∧
      (Memory.wf f.buf = true → ∀ i, i < 384000 → readMem t (.mdly r) 0 i = some 0#32) ∧
      Untouched s t noReg (fun q m i => q = .mdly r ∧ m = 0 ∧ i < 384000))

/-! ## Multitap delay -/

/-- R271, R273 to R278: the settings; a new seed or cross seed fills `SEEDV` and derives all 256 taps. -/
def Obligations.MultitapSettings : Prop :=
  ∀ (s : State) (u : UnitAddr) (v : Word) (sd : Side), s.port = .A → unitOf u = some (.mtap sd) →
    Memory.wf (s.mtap sd).seedV = true → Memory.wf (s.mtap sd).tapGain = true → Memory.wf (s.mtap sd).tapPos = true →
    let f := s.mtap sd
    let derives := fun (i : Instr) (n : Nat) (f' : Multitap) => ∃ t, exec i s = .next t ∧
      t.mtap sd = { f' with
        seedV := (t.mtap sd).seedV, tapGain := (t.mtap sd).tapGain, tapPos := (t.mtap sd).tapPos } ∧
      memReadList (t.mtap sd).seedV 0 768 = generateCross Config.chip f'.seed f'.xseed 768 ∧
      (∀ i, i < 256 → memRead (t.mtap sd).tapGain i =
        fmul (Config.chip.fpow10 (fdiv (fadd 0xC1A00000#32
            (fmul 0x41A00000#32 (memRead (t.mtap sd).seedV (3 * i + 1)))) (itof 20)))
          (if flt (memRead (t.mtap sd).seedV (3 * i)) 0x3F000000#32 then fone else fnegOne)) ∧
      (∀ i : Nat, i < 256 → memRead (t.mtap sd).tapPos i = fadd (itof i) (memRead (t.mtap sd).seedV (3 * i + 2))) ∧
      Untouched s t (fun q m => q = .mtap sd ∧ m = n) (fun q m _ => q = .mtap sd ∧ 1 ≤ m)
    (1 ≤ v.toNat ∧ v.toNat ≤ 256 → ∃ t, exec (.mtSetTaps u v) s = .next t ∧ t.mtap sd = { f with taps := v.toNat } ∧
      Untouched s t (fun q n => q = .mtap sd ∧ n = 0) noMem) ∧
    (¬ (1 ≤ v.toNat ∧ v.toNat ≤ 256) → exec (.mtSetTaps u v) s = .next (s.raise .cfgErr)) ∧
    (1 ≤ v.toNat ∧ v.toNat ≤ 383999 → ∃ t, exec (.mtSetLen u v) s = .next t ∧ t.mtap sd = { f with len := v.toNat } ∧
      Untouched s t (fun q n => q = .mtap sd ∧ n = 1) noMem) ∧
    (¬ (1 ≤ v.toNat ∧ v.toNat ≤ 383999) → exec (.mtSetLen u v) s = .next (s.raise .cfgErr)) ∧
    (fle fzero v = true ∧ fle v fone = true →
      (∃ t, exec (.mtSetDecay u v) s = .next t ∧ t.mtap sd = { f with decay := v } ∧
        Untouched s t (fun q n => q = .mtap sd ∧ n = 2) noMem) ∧
      derives (.mtSetX u v) 4 { f with xseed := v }) ∧
    (¬ (fle fzero v = true ∧ fle v fone = true) →
      exec (.mtSetDecay u v) s = .next (s.raise .cfgErr) ∧ exec (.mtSetX u v) s = .next (s.raise .cfgErr)) ∧
    derives (.mtSetSeed u v) 3 { f with seed := v }

/-- R272, R281, R279, R280: one sample through the cluster (write first, the taps summed in ascending order from `+0`, then
the advance), and the clear of the buffer. -/
def Obligations.MultitapStep : Prop :=
  ∀ (s : State) (u : UnitAddr) (v : Word) (sd : Side), s.port = .A → unitOf u = some (.mtap sd) →
    let f := s.mtap sd
    (∃ t, exec (.mtStep u v) s = .next t ∧
      let buf := memWrite f.buf f.widx v
      let len := itof f.len
      let n := itof f.taps
      let tg := fmul (fdiv 0x40400000#32 (fsqrt (fadd fone n))) (fadd fone (fmul ftwo f.decay))
      let off := fun i : Nat => ftoiFloor (fmul (memRead f.tapPos i) (fdiv len n))
      let e := fun i : Nat => fadd (fmul (Config.chip.fexp (fmul (fdiv (fneg (itof (off i))) len) 0x40533333#32)) f.decay)
        (fsub fone f.decay)
      let term := fun i : Nat =>
        fmul (fmul (fmul (memTap buf f.widx (off i) 384000) (memRead f.tapGain i)) (e i)) tg
      t.mtap sd = { f with buf := buf, widx := (f.widx + 1) % 384000 } ∧
      t.resA = (List.range f.taps).foldl (fun acc i => fadd acc (term i)) fzero ∧
      Untouched s t (fun q n => (q = .mtap sd ∧ n = 5) ∨ (q = .sys ∧ n = 4))
        (fun q m i => q = .mtap sd ∧ m = 0 ∧ i = f.widx)) ∧
    (∃ t, exec (.mtClr u) s = .next t ∧
      (Memory.wf f.buf = true → ∀ i, i < 384000 → readMem t (.mtap sd) 0 i = some 0#32) ∧
      Untouched s t noReg (fun q m i => q = .mtap sd ∧ m = 0 ∧ i < 384000))

/-- R281: "the offset does not exceed `LEN` ... so no read wraps": for every tap in use, its position between `i` and
`i + 1`. -/
def Obligations.MultitapOffsets : Prop :=
  ∀ (pos : F) (i taps len : Nat), tapsOk taps = true → lenOk len = true → i < taps →
    inRange (itof i) (itof (i + 1 : Nat)) pos = true →
    0 ≤ tapOffset pos (itof len) (itof taps) ∧ tapOffset pos (itof len) (itof taps) ≤ len

/-! ## Delay line -/

/-- R294, R295, R319 to R321, R323 to R325: the settings of a line and of a channel that write one register. -/
def Obligations.LineAndChannelSettings : Prop :=
  ∀ (s : State) (u : UnitAddr) (v : Word), s.port = .A →
    (∀ sd j, unitOf u = some (.dline sd j) →
      (isFinite v = true → ∃ t, exec (.dlSetFb u v) s = .next t ∧ t.line sd j = { s.line sd j with fb := v } ∧
        Untouched s t (fun q n => q = .dline sd j ∧ n = 0) noMem) ∧
      (isFinite v = false → exec (.dlSetFb u v) s = .next (s.raise .cfgErr)) ∧
      (v.toNat < 32 → ∃ t, exec (.dlSetFlags u v) s = .next t ∧
        t.line sd j = { s.line sd j with flags := v.extractLsb' 0 5 } ∧
        Untouched s t (fun q n => q = .dline sd j ∧ n = 1) noMem) ∧
      (32 ≤ v.toNat → exec (.dlSetFlags u v) s = .next (s.raise .cfgErr))) ∧
    (∀ sd, unitOf u = some (.chan sd) →
      let c := s.chan sd
      (isFinite v = true →
        (∃ t, exec (.chSetInMix u v) s = .next t ∧ t.chan sd = { c with inMix := v } ∧
          Untouched s t (fun q n => q = .chan sd ∧ n = 0) noMem) ∧
        (∃ t, exec (.chSetDry u v) s = .next t ∧ t.chan sd = { c with dry := v } ∧
          Untouched s t (fun q n => q = .chan sd ∧ n = 4) noMem) ∧
        (∃ t, exec (.chSetEarly u v) s = .next t ∧ t.chan sd = { c with early := v } ∧
          Untouched s t (fun q n => q = .chan sd ∧ n = 5) noMem) ∧
        (∃ t, exec (.chSetLineOut u v) s = .next t ∧ t.chan sd = { c with lineOut := v } ∧
          Untouched s t (fun q n => q = .chan sd ∧ n = 6) noMem)) ∧
      (isFinite v = false →
        exec (.chSetInMix u v) s = .next (s.raise .cfgErr) ∧ exec (.chSetDry u v) s = .next (s.raise .cfgErr) ∧
        exec (.chSetEarly u v) s = .next (s.raise .cfgErr) ∧ exec (.chSetLineOut u v) s = .next (s.raise .cfgErr)) ∧
      (v.toNat < 16 → ∃ t, exec (.chSetFlags u v) s = .next t ∧ t.chan sd = { c with flags := v.extractLsb' 0 4 } ∧
        Untouched s t (fun q n => q = .chan sd ∧ n = 1) noMem) ∧
      (16 ≤ v.toNat → exec (.chSetFlags u v) s = .next (s.raise .cfgErr)) ∧
      (1 ≤ v.toNat ∧ v.toNat ≤ 12 → ∃ t, exec (.chSetLines u v) s = .next t ∧ t.chan sd = { c with lines := v.toNat } ∧
        Untouched s t (fun q n => q = .chan sd ∧ n = 2) noMem) ∧
      (¬ (1 ≤ v.toNat ∧ v.toNat ≤ 12) → exec (.chSetLines u v) s = .next (s.raise .cfgErr)))

/-- R297: `DL.PROC` reads the first `n` words of `IO0`, writes the output to the first `n` words of `IO2`, leaves a queue
count of `max(0, c - n) + n`, and touches no stage whose flag is clear and nothing outside the line's signal state; a count
of 0 or above 128 raises `Fault(CFGERR)`. For a block of one sample, the signal path of R293 in full. -/
def Obligations.LineProc : Prop :=
  ∀ (s : State) (u : UnitAddr) (v : Word) (sd : Side) (j : Fin 12), s.port = .A → unitOf u = some (.dline sd j) →
    let l := s.line sd j
    let n := v.toNat
    (1 ≤ n ∧ n ≤ 128 → Memory.wf s.io[(2 : Fin 4)] = true → l.qCount ≤ 256 → ∃ t, exec (.dlProc u v) s = .next t ∧
      t.line sd j = (dlineProc Config.chip l (memReadList s.io[(0 : Fin 4)] 0 n)).2 ∧
      memReadList t.io[(2 : Fin 4)] 0 n = (dlineProc Config.chip l (memReadList s.io[(0 : Fin 4)] 0 n)).1 ∧
      (t.line sd j).qCount = (l.qCount - n) + n ∧
      (flagDiffEn l.flags = false → (t.line sd j).df = l.df) ∧ (flagLsEn l.flags = false → (t.line sd j).ls = l.ls) ∧
      (flagHsEn l.flags = false → (t.line sd j).hs = l.hs) ∧ (flagCutEn l.flags = false → (t.line sd j).damp = l.damp) ∧
      Untouched s t (fun q m => q.inLine sd j = true ∧ q.cls.signalReg m = true)
        (fun q m i => (q.inLine sd j = true ∧ q.cls.sampleMem m = true) ∨ (q = .io 2 ∧ m = 0 ∧ i < n))) ∧
    (¬ (1 ≤ n ∧ n ≤ 128) → exec (.dlProc u v) s = .next (s.raise .cfgErr)) ∧
    (∀ x : F, l.qCount ≤ 256 →
      let pop := if 0 < l.qCount then memRead l.q l.qRd else fzero
      let d := mdlyStep Config.chip l.delay (fadd x (fmul pop l.fb))
      let a := if flagDiffEn l.flags then diffStep Config.chip l.df d.1 else (d.1, l.df)
      let b := if flagLsEn l.flags then shelfStep l.ls a.1 else (a.1, l.ls)
      let c := if flagHsEn l.flags then shelfStep l.hs b.1 else (b.1, l.hs)
      let e := if flagCutEn l.flags then lp1Step Config.chip l.damp c.1 else (c.1, l.damp)
      let r := dlineProc Config.chip l [x]
      r.1 = [if flagTapPost l.flags then a.1 else d.1] ∧
      r.2.delay = d.2 ∧ r.2.df = a.2 ∧ r.2.ls = b.2 ∧ r.2.hs = c.2 ∧ r.2.damp = e.2 ∧
      r.2.q = memWrite l.q l.qWr e.1 ∧ r.2.qWr = (l.qWr + 1) % 256 ∧
      r.2.qRd = (if 0 < l.qCount then (l.qRd + 1) % 256 else l.qRd))

/-- R77: the feedback queue is first in, first out: a push appends the value, or drops it where 256 values wait; a pop gives
the oldest and takes it out, or gives `+0` and changes nothing; and the queue stays a queue. -/
def Obligations.QueueFifo : Prop :=
  ∀ (l : DelayLine) (v : F), l.QueueOk → Memory.wf l.q = true →
    (l.contents.length < 256 → (l.push v).contents = l.contents ++ [v]) ∧
    (l.contents.length = 256 → l.push v = l) ∧
    (l.contents = [] → l.pop = (fzero, l)) ∧
    (∀ a rest, l.contents = a :: rest → l.pop.1 = a ∧ l.pop.2.contents = rest) ∧
    (l.push v).QueueOk ∧ l.pop.2.QueueOk ∧ Memory.wf (l.push v).q = true ∧ l.contents.length = l.qCount

/-- R291, R299: from an empty queue, the block runs on zero feedback, and the values it puts into the queue come back as the
feedback of the next block of the same length, sample for sample, and leave the queue empty again. -/
def Obligations.FeedbackLatency : Prop :=
  ∀ (cfg : Config.Params) (l : DelayLine) (x : List F), l.QueueOk → Memory.wf l.q = true → l.qCount = 0 →
    1 ≤ x.length → x.length ≤ 128 →
    let r := l.samples cfg (x.zip (List.replicate x.length fzero))
    (dlineProc cfg l x).1 = r.1 ∧
    (DelayLine.popN x.length (dlineProc cfg l x).2).1 = r.2.1 ∧
    (DelayLine.popN x.length (dlineProc cfg l x).2).2.qCount = 0 ∧ r.2.1.length = x.length

/-! ## Channel -/

/-- R315, R322, R326: a decay time gives all 12 lines their gain from the line delay in force; a cross seed reaches the
multitap and all 13 diffusers of the channel, and each is derived again. -/
def Obligations.ChannelSeedsDecay : Prop :=
  ∀ (s : State) (u : UnitAddr) (v : Word) (sd : Side), s.port = .A → unitOf u = some (.chan sd) →
    let c := s.chan sd
    (flt fzero v = true ∧ isInf v = false → ∃ t, exec (.chSetDecay u v) s = .next t ∧ (t.chan sd).decayT = v ∧
      (∀ j,
        let dB := fmul (fdiv (itof (s.line sd j).delay.dly) v) 0xC2700000#32
        t.line sd j = { s.line sd j with fb := Config.chip.fpow10 (fdiv dB (itof 20)) }) ∧
      Untouched s t (fun q n => (q = .chan sd ∧ n = 3) ∨ (∃ j, q = .dline sd j ∧ n = 0)) noMem) ∧
    (¬ (flt fzero v = true ∧ isInf v = false) → exec (.chSetDecay u v) s = .next (s.raise .cfgErr)) ∧
    (fle fzero v = true ∧ fle v fone = true → c.Legal → ∃ t, exec (.chSetX u v) s = .next t ∧
      (t.chan sd).xseed = v ∧ (t.chan sd).mt.xseed = v ∧ (t.chan sd).ed.xseed = v ∧
      (∀ j, (t.line sd j).df.xseed = v ∧ (t.line sd j).df.Derived Config.chip) ∧
      (t.chan sd).mt.Coherent Config.chip ∧ (t.chan sd).ed.Derived Config.chip ∧ c.SameSignal (t.chan sd) ∧
      Untouched s t
        (fun q n => (q = .chan sd ∧ n = 7) ∨ (q = .mtap sd ∧ n = 4) ∨
          (∃ r, q = .diff r ∧ q.inChan sd = true ∧ n = 6) ∨
          (∃ r, q = .map r ∧ q.inChan sd = true ∧ (n = 0 ∨ n = 2 ∨ n = 3 ∨ 7 ≤ n ∧ n ≤ 10)))
        (fun q m _ => (q = .mtap sd ∧ 1 ≤ m) ∨ (∃ r, q = .diff r ∧ q.inChan sd = true ∧ m = 1))) ∧
    (¬ (fle fzero v = true ∧ fle v fone = true) → exec (.chSetX u v) s = .next (s.raise .cfgErr))

/-- R311, R312, R313, R314, R327: `CH.PROC` takes the first `n` words of `IO0` through the channel into the first `n` words
of `IO2`: the samples run one after the other through the input stage and the early stages, each stage whose flag is set
taking its step and keeping its new state, each other one left alone; then every line below `LINES` gets the same block of
early taps, the others keep their state, and the output is the weighted sum of R314. -/
def Obligations.ChannelProc : Prop :=
  ∀ (s : State) (u : UnitAddr) (v : Word) (sd : Side), s.port = .A → unitOf u = some (.chan sd) →
    let c := s.chan sd
    let n := v.toNat
    let x := memReadList s.io[(0 : Fin 4)] 0 n
    let e := (chanEarlyBlock Config.chip c x).1
    (1 ≤ n ∧ n ≤ 128 → Memory.wf s.io[(2 : Fin 4)] = true → ∃ t, exec (.chProc u v) s = .next t ∧
      memReadList t.io[(2 : Fin 4)] 0 n = (chanProc Config.chip c x).1 ∧ t.chan sd = (chanProc Config.chip c x).2 ∧
      (∀ i, i < n → ∃ xi ei, x[i]? = some xi ∧ e[i]? = some ei ∧
        let lo := fun j : Fin 12 => ((dlineProc Config.chip c.line[j] e).1)[i]?.getD fzero
        let sum := ((List.finRange 12).filter fun j => decide (j.val < c.lines)).foldl (fun a j => fadd a (lo j)) fzero
        readMem t (.io 2) 0 i = some (fadd (fadd (fmul c.dry xi) (fmul c.early ei))
          (fmul c.lineOut (fmul sum (fdiv fone (fsqrt (itof c.lines))))))) ∧
      (∀ j : Fin 12, t.line sd j =
        if j.val < c.lines then (dlineProc Config.chip c.line[j] e).2 else c.line[j]) ∧
      t.chan sd = { (chanEarlyBlock Config.chip c x).2 with line := (t.chan sd).line } ∧
      (flagHpEn c.flags = false → (t.chan sd).hp = c.hp) ∧ (flagLpEn c.flags = false → (t.chan sd).lp = c.lp) ∧
      (flagMtEn c.flags = false → (t.chan sd).mt = c.mt) ∧ (flagEdEn c.flags = false → (t.chan sd).ed = c.ed) ∧
      Untouched s t (fun q m => q.inChan sd = true ∧ q.cls.signalReg m = true)
        (fun q m i => (q.inChan sd = true ∧ q.cls.sampleMem m = true) ∨ (q = .io 2 ∧ m = 0 ∧ i < n))) ∧
    (¬ (1 ≤ n ∧ n ≤ 128) → exec (.chProc u v) s = .next (s.raise .cfgErr)) ∧
    (∀ d : Channel, chanEarlyBlock Config.chip d [] = ([], d) ∧ ∀ (y : F) (ys : List F),
      let hp := if flagHpEn d.flags then hp1Step Config.chip d.hp (fmul y d.inMix) else (fmul y d.inMix, d.hp)
      let lp := if flagLpEn d.flags then lp1Step Config.chip d.lp hp.1 else (hp.1, d.lp)
      let a := if flt (fmul lp.1 lp.1) 0x3089705F#32 then 0x00000000#32 else lp.1
      let pre := mdlyStep Config.chip d.pre a
      let mt := if flagMtEn d.flags then mtapStep Config.chip d.mt pre.1 else (pre.1, d.mt)
      let ed := if flagEdEn d.flags then diffStep Config.chip d.ed mt.1 else (mt.1, d.ed)
      let rest := chanEarlyBlock Config.chip { d with hp := hp.2, lp := lp.2, pre := pre.2, mt := mt.2, ed := ed.2 } ys
      chanEarlyBlock Config.chip d (y :: ys) = (ed.1 :: rest.1, rest.2))

/-- R298, R328, R359, R433: the clears of a line, a channel and the engine set every sample memory, filter history and
feedback queue of theirs to zero, whatever the flags are, and change nothing else. -/
def Obligations.ClearCommands : Prop :=
  ∀ (s : State) (u : UnitAddr), s.port = .A → s.Legal →
    let clears := fun (i : Instr) (inside : UnitRef → Prop) => ∃ t, exec i s = .next t ∧
      (∀ q m a, inside q → q.cls.sampleMem m = true → a < q.cls.memWords m → readMem t q m a = some 0#32) ∧
      (∀ q n, inside q → q.cls.clearedReg n = true → readReg t q n = some 0#32) ∧
      Untouched s t (fun q n => inside q ∧ q.cls.clearedReg n = true)
        (fun q m _ => inside q ∧ q.cls.sampleMem m = true)
    (∀ sd j, unitOf u = some (.dline sd j) → clears (.dlClr u) fun q => q.inLine sd j = true) ∧
    (∀ sd, unitOf u = some (.chan sd) → clears (.chClr u) fun q => q.inChan sd = true) ∧
    (unitOf u = some .eng → clears (.enClr u) fun q => ∃ sd, q.inChan sd = true)

/-- R312: every value of magnitude pattern at most 0x3804A2B2 is flushed to `+0`, and every larger finite one, every NaN and
every infinity passes as it is. -/
def Obligations.DenormalFlush : Prop :=
  ∀ a : F,
    flush a = (if flt (fmul a a) 0x3089705F#32 then 0x00000000#32 else a) ∧
    ((a.toNat % 2 ^ 31 ≤ 0x3804A2B2) → flush a = 0x00000000#32) ∧
    (0x3804A2B2 < a.toNat % 2 ^ 31 → flush a = a)

/-- R329, silent in, silent out: a cleared channel with finite gains gives zeros for zeros and is again such a channel, so
that the law holds for any number of blocks; with `+0` at the input and a dry weight of `+0` or positive, the output is `+0`
bit for bit. -/
def Obligations.SilentChannel : Prop :=
  ∀ (cfg : Config.Params) (c : Channel) (x : List F),
    (∀ v, isFinite v = true → fle v fzero = true → fle fzero (cfg.fexp v) = true ∧ fle (cfg.fexp v) fone = true) →
    c.Tame cfg → c.Silent → (∀ a, a ∈ x → isZero a = true) →
    (∀ y, y ∈ (chanProc cfg c x).1 → isZero y = true) ∧
    (chanProc cfg c x).2.Silent ∧ (chanProc cfg c x).2.Tame cfg ∧
    ((∀ a, a ∈ x → a = fzero) → signBit c.dry = false → ∀ y, y ∈ (chanProc cfg c x).1 → y = 0x00000000#32)

/-! ## Engine -/

/-- R350, R351, R352: on either port, `EN.SETP` stores the value clamped to [0, 1], a NaN as `+0`, and sets `DIRTY` for every
key but mix; `EN.GETP` returns the stored value; a key above 9 raises `Fault(KEYERR)`; and the values of the document's
property for -5.0 and 5.0. -/
def Obligations.ParameterCommands : Prop :=
  (∀ (s : State) (u : UnitAddr) (sub : SubField) (v : Word), unitOf u = some .eng →
    (∀ k : Fin 10, sub.toNat = k.val →
      (∃ t, exec (.enSetP u sub v) s = .next t ∧
        t.eng.np[k] = (if flt fzero v = false then 0x00000000#32 else if flt fone v then 0x3F800000#32 else v) ∧
        (∀ j : Fin 10, j ≠ k → t.eng.np[j] = s.eng.np[j]) ∧ inUnit t.eng.np[k] = true ∧
        t.eng.dirty = (if k = 4 then s.eng.dirty else true) ∧
        Untouched s t (fun q n => q = .eng ∧ (n = k.val ∨ (n = 10 ∧ k ≠ 4))) noMem) ∧
      (∃ t, exec (.enGetP u sub) s = .next t ∧ t.res s.port = s.eng.np[k] ∧ Untouched s t (resReg s) noMem)) ∧
    (9 < sub.toNat →
      exec (.enSetP u sub v) s = .next (s.raise .keyErr) ∧ exec (.enGetP u sub) s = .next (s.raise .keyErr))) ∧
  clamp01 0xC0A00000#32 = 0x00000000#32 ∧ clamp01 0x40A00000#32 = 0x3F800000#32

/-- R353, R354, R363: `EN.SYNC` does nothing with `DIRTY` clear; else it clears `DIRTY` and configures both channels from one
snapshot of the parameters, changing no sample memory, no history, no phase, counter or cursor and no queue; the cross seeds
are split (R348), the input weight is 1.0 (95_test_vectors.md section 1.8), the seeds of both channels are the same (R143).
And what R362 requires of `DERIVE`, whatever the free function is: (a), (e) legal fields and a decay time in its range, (b)
the cross seed of the side, (c) independence of mix, (f) one record for both sides where their cross seeds are the same
(how the model secures it, log entry 4, DESIGN CHOICE). -/
def Obligations.EngineSync : Prop :=
  (∀ (s : State) (u : UnitAddr), s.port = .A → unitOf u = some .eng →
    (s.eng.dirty = false → exec (.enSync u) s = .next s) ∧
    (s.eng.dirty = true → ∃ t, exec (.enSync u) s = .next t ∧ t.eng = { s.eng with dirty := false } ∧
      (∀ sd, t.chan sd = applyConfig Config.chip (s.chan sd)
        (deriveConfig Config.chip s.eng.np Config.defaultInputMix sd)) ∧
      t.right.xseed = fmul 0x3F000000#32 s.eng.np[(7 : Fin 10)] ∧
      t.left.xseed = fsub 0x3F800000#32 (fmul 0x3F000000#32 s.eng.np[(7 : Fin 10)]) ∧
      t.left.inMix = 0x3F800000#32 ∧ t.right.inMix = 0x3F800000#32 ∧ t.left.SameSeeds t.right ∧
      (∀ sd, (s.chan sd).SameSignal (t.chan sd)) ∧
      Untouched s t (fun q n => (q = .eng ∧ n = 10) ∨ (∃ sd, q.inChan sd = true))
        (fun q m _ => (∃ sd, q.inChan sd = true) ∧ q.cls.sampleMem m = false))) ∧
  (∀ (cfg : Config.Params) (p : Vector F 10) (inputMix : F) (sd : Side),
    let k := deriveConfig cfg p inputMix sd
    ((∀ i : Fin 10, inUnit p[i] = true) → isFinite inputMix = true → LegalConfig k) ∧
    k.xseed = (if sd = .R then fmul 0x3F000000#32 p[(7 : Fin 10)]
      else fsub 0x3F800000#32 (fmul 0x3F000000#32 p[(7 : Fin 10)])) ∧
    k.inMix = inputMix ∧
    (∀ m : F, deriveConfig cfg (p.set 4 m) inputMix sd = k) ∧
    (fmul 0x3F000000#32 p[(7 : Fin 10)] = fsub 0x3F800000#32 (fmul 0x3F000000#32 p[(7 : Fin 10)]) →
      ∀ sd', deriveConfig cfg p inputMix sd' = k))

/-- R363: after `ApplyConfig` every configuration register holds its field of the record, every derived register and memory
is the function of the registers it derives from, the line gains included, and the signal state is as before. -/
def Obligations.ApplyConfigWritesAll : Prop :=
  ∀ (cfg : Config.Params) (c : Channel) (k : Config.ChannelConfig), c.Legal →
    (applyConfig cfg c k).Holds cfg k ∧ (applyConfig cfg c k).Coherent cfg ∧
    (applyConfig cfg c k).ed.Derived cfg ∧ (∀ j : Fin 12, (applyConfig cfg c k).line[j].df.Derived cfg) ∧
    c.SameSignal (applyConfig cfg c k)

/-- R355, R356, R357: `EN.PROC` runs the pass, then each channel over its own input bank, and writes the mix of input and
channel output into its own output bank; a count of 0 or above 128 raises `Fault(CFGERR)` and not even the pass runs. -/
def Obligations.EngineProc : Prop :=
  ∀ (s : State) (u : UnitAddr) (v : Word), s.port = .A → unitOf u = some .eng →
    let n := v.toNat
    (1 ≤ n ∧ n ≤ 128 → Memory.wf s.io[(2 : Fin 4)] = true → Memory.wf s.io[(3 : Fin 4)] = true →
      ∃ s1 t, exec (.enSync u) s = .next s1 ∧ exec (.enProc u v) s = .next t ∧ t.eng = s1.eng ∧
        let m := s.eng.np[(4 : Fin 10)]
        let mix := fun dry wet : F => fadd (fmul (fsub fone m) dry) (fmul m wet)
        let xl := memReadList s.io[(0 : Fin 4)] 0 n
        let xr := memReadList s.io[(1 : Fin 4)] 0 n
        t.left = (chanProc Config.chip s1.left xl).2 ∧ t.right = (chanProc Config.chip s1.right xr).2 ∧
        memReadList t.io[(2 : Fin 4)] 0 n = List.zipWith mix xl (chanProc Config.chip s1.left xl).1 ∧
        memReadList t.io[(3 : Fin 4)] 0 n = List.zipWith mix xr (chanProc Config.chip s1.right xr).1 ∧
        Untouched s1 t (fun q m => (∃ sd, q.inChan sd = true) ∧ q.cls.signalReg m = true)
          (fun q m i => ((∃ sd, q.inChan sd = true) ∧ q.cls.sampleMem m = true) ∨
            ((q = .io 2 ∨ q = .io 3) ∧ m = 0 ∧ i < n))) ∧
    (¬ (1 ≤ n ∧ n ≤ 128) → exec (.enProc u v) s = .next (s.raise .cfgErr))

/-- R356: no path leads from one side's input or state to the other side's output or state, in `EN.PROC` whatever the
parameters are: two machines that agree on one side agree on it afterwards. -/
def Obligations.SideIsolation : Prop :=
  ∀ (s s' t t' : State) (u : UnitAddr) (v : Word), s.port = s'.port → s.eng = s'.eng →
    exec (.enProc u v) s = .next t → exec (.enProc u v) s' = .next t' →
    (s.left = s'.left → s.io[(0 : Fin 4)] = s'.io[(0 : Fin 4)] → s.io[(2 : Fin 4)] = s'.io[(2 : Fin 4)] →
      t.left = t'.left ∧ t.io[(2 : Fin 4)] = t'.io[(2 : Fin 4)]) ∧
    (s.right = s'.right → s.io[(1 : Fin 4)] = s'.io[(1 : Fin 4)] → s.io[(3 : Fin 4)] = s'.io[(3 : Fin 4)] →
      t.right = t'.right ∧ t.io[(3 : Fin 4)] = t'.io[(3 : Fin 4)]) ∧
    t.eng = t'.eng

/-- R341 to R347: the four commands of the function unit accept every operand and write `RES[p]` alone. -/
def Obligations.FunctionUnit : Prop :=
  ∀ (s : State) (u : UnitAddr) (x : Word), s.port = .A → unitOf u = some .fn →
    (∃ t, exec (.fnR2d u x) s = .next t ∧
      t.resA = fmul (fmul (fsub (Config.chip.fpow10 (fmul ftwo x)) fone) 0x3F814AFD#32) 0x3C23D70A#32 ∧
      Untouched s t (resReg s) noMem) ∧
    (∃ t, exec (.fnR3d u x) s = .next t ∧
      t.resA = fmul (fmul (fsub (Config.chip.fpow10 (fmul 0x40400000#32 x)) fone) 0x3F8020CD#32) 0x3A83126F#32 ∧
      Untouched s t (resReg s) noMem) ∧
    (∃ t, exec (.fnR4o u x) s = .next t ∧
      t.resA = fmul (fmul (fsub (Config.chip.fpow2 (fmul 0x40800000#32 x)) fone) 0x3F888889#32) 0x3D800000#32 ∧
      Untouched s t (resReg s) noMem) ∧
    (∃ t, exec (.fnDb2Lin u x) s = .next t ∧ t.resA = Config.chip.fpow10 (fdiv x 0x41A00000#32) ∧
      Untouched s t (resReg s) noMem)

/-! ## Invariants of every step -/

/-- R406: the legal values of the registers (but MAP `MODA`, `MODR` and `DELAYA`, which RangedKept adds) and the canonical
form of every memory (log entry 2, DEDUCED) hold after every step, whatever the command, from any state in which they hold;
so does that of DLINE `FB` (R33), finite or taken from `fpow10` at an argument up to 0, where `POW10_FINITE` of R13 makes it
finite unless the argument is minus infinity (a decay time so short that `DLY / DECAYT` overflows). -/
def Obligations.LegalKept : Prop :=
  (∀ s t : State, s.Legal → step s = .next t → t.Legal ∧ (s.FbLegal → t.FbLegal)) ∧
  (∀ (cfg : Config.Params) (l : DelayLine), Pow10Finite cfg → l.FbLegal cfg →
    isFinite l.fb = true ∨ l.fb = cfg.fpow10 0xFF800000#32)

/-- The reset state is legal, its random values and taps in range, its feedback gains as in LegalKept, and no derived value
of it is stale (R430, R431). -/
def Obligations.InvariantsAtReset : Prop :=
  State.reset.Legal ∧ State.reset.Ranged ∧ State.reset.FbLegal ∧ State.reset.Coherent

/-- R29, R30, R31, R223: the random values of every diffuser stay in [0, 1], the derived amounts and rates of every stage in
the ranges of a MAP, and every tap at a delay of at least 1. -/
def Obligations.RangedKept : Prop := ∀ s t : State, s.Legal → s.Ranged → step s = .next t → t.Ranged

/-- R85: no stale derived value is ever visible: coefficients, taps, random values and tap attributes agree after every step
with the registers they derive from. -/
def Obligations.CoherentKept : Prop := ∀ s t : State, s.Legal → s.Coherent → step s = .next t → t.Coherent

/-- R76: every `SET` command is idempotent: issued again with the same operand it changes nothing more. -/
def Obligations.SetIdempotent : Prop :=
  ∀ (i : Instr) (s t : State), i.isSet = true → s.Legal → exec i s = .next t → exec i t = .next t
end

