-- ==== Sys2Proof/Laws/Memory.lean ====
section
/-! SUPPORT. The laws of the word-addressed memories (spec/20_memory.md R70 to R74): what a read gives after a write, a
list of writes and a clear; that every operation keeps the canonical form and the size; and that canonical memories with
equal reads are equal. -/

namespace Sys2Proof.Machine

/-! ## The canonical form -/

@[simp] theorem memWfFrom_nil (lo : Nat) : memWfFrom lo [] = true := rfl

theorem memWfFrom_cons (lo b : Nat) (w : Word) (m : Mem) :
    memWfFrom lo ((b, w) :: m) = true ↔ lo ≤ b ∧ w ≠ memDefault ∧ memWfFrom (b + 1) m = true := by
  simp [memWfFrom, and_assoc]

theorem memWfFrom_mono {lo lo' : Nat} {m : Mem} (h : memWfFrom lo m = true) (hl : lo' ≤ lo) :
    memWfFrom lo' m = true := by
  cases m with
  | nil => rfl
  | cons c m =>
    rw [memWfFrom_cons] at h ⊢
    exact ⟨le_trans hl h.1, h.2⟩

/-- Below its first possible index a canonical memory reads as the default. -/
theorem memRead_of_lt {lo a : Nat} {m : Mem} (h : memWfFrom lo m = true) (ha : a < lo) : memRead m a = memDefault := by
  induction m generalizing lo with
  | nil => rfl
  | cons c m ih =>
    obtain ⟨b, w⟩ := c
    rw [memWfFrom_cons] at h
    have hab : a ≠ b := by omega
    simp only [memRead, hab, if_false]
    exact ih h.2.2 (by omega)

@[simp] theorem memRead_nil (a : Nat) : memRead [] a = memDefault := rfl

@[simp] theorem wf_nil : Memory.wf [] = true := rfl

@[simp] theorem memWithin_nil (cap : Nat) : memWithin cap [] = true := rfl

/-! ## One write -/

theorem memRead_memWrite_from {lo : Nat} {m : Mem} (h : memWfFrom lo m = true) (a : Nat) (v : Word) (b : Nat) :
    memRead (memWrite m a v) b = if b = a then v else memRead m b := by
  induction m generalizing lo with
  | nil => by_cases hv : v = memDefault <;> by_cases hb : b = a <;> simp [memWrite, memRead, hv, hb]
  | cons c m ih =>
    obtain ⟨k, w⟩ := c
    rw [memWfFrom_cons] at h
    have hk : ∀ x, x < k + 1 → memRead m x = memDefault := fun x hx => memRead_of_lt h.2.2 hx
    rcases Nat.lt_trichotomy a k with hak | rfl | hak
    · have h1 : memRead m a = memDefault := hk a (by omega)
      by_cases hv : v = memDefault
      · simp only [memWrite, hak, if_true, hv]
        by_cases hb : b = a
        · subst hb
          simp [memRead, Nat.ne_of_lt hak, h1]
        · simp [hb]
      · simp [memWrite, hak, hv, memRead]
    · by_cases hv : v = memDefault
      · simp only [memWrite, lt_irrefl, if_false, if_true, hv, memRead]
        by_cases hb : b = a
        · simp [hb, hk]
        · simp [hb]
      · by_cases hb : b = a <;> simp [memWrite, hv, memRead, hb]
    · have hlt : ¬ a < k := by omega
      have hne : a ≠ k := by omega
      simp only [memWrite, hlt, hne, if_false, memRead, ih h.2.2]
      by_cases hb : b = k
      · have : b ≠ a := by omega
        simp [hb, Ne.symm hne]
      · simp [hb]

theorem memWfFrom_memWrite {lo : Nat} {m : Mem} (h : memWfFrom lo m = true) {a : Nat} (ha : lo ≤ a) (v : Word) :
    memWfFrom lo (memWrite m a v) = true := by
  induction m generalizing lo with
  | nil =>
    by_cases hv : v = memDefault
    · simp [memWrite, hv]
    · simp [memWrite, hv, memWfFrom, ha]
  | cons c m ih =>
    obtain ⟨k, w⟩ := c
    have h' := h
    rw [memWfFrom_cons] at h
    rcases Nat.lt_trichotomy a k with hak | rfl | hak
    · by_cases hv : v = memDefault
      · simp [memWrite, hak, hv, h']
      · simp only [memWrite, hak, hv, if_true, if_false, memWfFrom_cons]
        exact ⟨ha, hv, by omega, h.2.1, h.2.2⟩
    · by_cases hv : v = memDefault
      · simp only [memWrite, lt_irrefl, hv, if_true, if_false]
        exact memWfFrom_mono h.2.2 (by omega)
      · simp only [memWrite, lt_irrefl, hv, if_true, if_false, memWfFrom_cons]
        exact ⟨ha, hv, h.2.2⟩
    · have hlt : ¬ a < k := by omega
      have hne : a ≠ k := by omega
      simp only [memWrite, hlt, hne, if_false, memWfFrom_cons]
      exact ⟨h.1, h.2.1, ih h.2.2 (by omega)⟩

/-- A read after a write: the value at the place, every other word as before. -/
theorem memRead_memWrite {m : Mem} (h : Memory.wf m = true) (a : Nat) (v : Word) (b : Nat) :
    memRead (memWrite m a v) b = if b = a then v else memRead m b :=
  memRead_memWrite_from h a v b

/-- A write keeps the canonical form. -/
theorem wf_memWrite {m : Mem} (h : Memory.wf m = true) (a : Nat) (v : Word) : Memory.wf (memWrite m a v) = true :=
  memWfFrom_memWrite h (Nat.zero_le a) v

theorem memWithin_cons (cap b : Nat) (w : Word) (m : Mem) :
    memWithin cap ((b, w) :: m) = true ↔ b < cap ∧ memWithin cap m = true := by
  simp [memWithin]

/-- A write inside the memory keeps every index inside. -/
theorem memWithin_memWrite {cap : Nat} {m : Mem} (h : memWithin cap m = true) {a : Nat} (ha : a < cap) (v : Word) :
    memWithin cap (memWrite m a v) = true := by
  induction m with
  | nil => by_cases hv : v = memDefault <;> simp [memWrite, hv, memWithin, ha]
  | cons c m ih =>
    obtain ⟨k, w⟩ := c
    have h' := h
    rw [memWithin_cons] at h
    by_cases hv : v = memDefault <;> by_cases h1 : a < k <;> by_cases h2 : a = k <;>
      simp [memWrite, hv, h1, h2, memWithin_cons, h.1, h.2, ha, ih h.2]
    simp_all

/-! ## A list of writes -/

@[simp] theorem memWriteList_nil (m : Mem) (i : Nat) : memWriteList m i [] = m := by cases m <;> rfl

@[simp] theorem memWriteList_cons (m : Mem) (i : Nat) (v : Word) (vs : List Word) :
    memWriteList m i (v :: vs) = memWriteList (memWrite m i v) (i + 1) vs := by cases m <;> rfl

theorem wf_memWriteList {m : Mem} (h : Memory.wf m = true) (i : Nat) (vs : List Word) :
    Memory.wf (memWriteList m i vs) = true := by
  induction vs generalizing m i with
  | nil => simpa using h
  | cons v vs ih => simpa using ih (wf_memWrite h i v) (i + 1)

theorem memWithin_memWriteList {cap : Nat} {m : Mem} (h : memWithin cap m = true) {i : Nat} {vs : List Word}
    (hi : i + vs.length ≤ cap) : memWithin cap (memWriteList m i vs) = true := by
  induction vs generalizing m i with
  | nil => simpa using h
  | cons v vs ih =>
    simp only [List.length_cons] at hi
    simpa using ih (memWithin_memWrite h (by omega) v) (by omega)

/-- A read after a list of writes: the value written at the place, every word outside the list as before. -/
theorem memRead_memWriteList {m : Mem} (h : Memory.wf m = true) (i : Nat) (vs : List Word) (b : Nat) :
    memRead (memWriteList m i vs) b = if i ≤ b then (vs[b - i]?).getD (memRead m b) else memRead m b := by
  induction vs generalizing m i with
  | nil => simp
  | cons v vs ih =>
    rw [memWriteList_cons, ih (wf_memWrite h i v), memRead_memWrite h]
    rcases Nat.lt_trichotomy b i with hb | rfl | hb
    · simp [Nat.not_le.2 hb, Nat.ne_of_lt hb, show ¬ i + 1 ≤ b by omega]
    · simp
    · have h1 : i ≤ b := by omega
      have h2 : i + 1 ≤ b := hb
      have h3 : b ≠ i := by omega
      obtain ⟨d, rfl⟩ : ∃ d, b = i + 1 + d := ⟨b - (i + 1), by omega⟩
      simp [h1, h3, show i + 1 + d - i = d + 1 by omega]

@[simp] theorem memReadList_length (m : Mem) (i n : Nat) : (memReadList m i n).length = n := by simp [memReadList]

@[simp] theorem memReadList_getElem {m : Mem} {i n j : Nat} (h : j < (memReadList m i n).length) :
    (memReadList m i n)[j] = memRead m (i + j) := by simp [memReadList]

/-- The words of a list, read back where they were written. -/
theorem memReadList_memWriteList {m : Mem} (h : Memory.wf m = true) (i : Nat) (vs : List Word) :
    memReadList (memWriteList m i vs) i vs.length = vs := by
  apply List.ext_getElem (by simp)
  intro j h1 h2
  simp [memRead_memWriteList h, h2]

/-! ## Clearing -/

theorem memRead_memClear_from {lo : Nat} {m : Mem} (h : memWfFrom lo m = true) (cap b : Nat) :
    memRead (memClear cap m) b = if b < cap then memDefault else memRead m b := by
  induction m generalizing lo with
  | nil => simp [memClear]
  | cons c m ih =>
    obtain ⟨k, w⟩ := c
    rw [memWfFrom_cons] at h
    have ih' := ih h.2.2
    simp only [memClear] at ih' ⊢
    by_cases hk : cap ≤ k
    · simp only [List.filter_cons, hk, decide_true, if_true, memRead, ih']
      by_cases hb : b = k
      · simp [hb, Nat.not_lt.2 hk]
      · simp [hb]
    · simp only [List.filter_cons, hk, decide_false, Bool.false_eq_true, if_false, memRead, ih']
      by_cases hb : b = k
      · simp [hb, Nat.lt_of_not_le hk]
      · simp [hb]

theorem memWfFrom_filter {lo : Nat} {m : Mem} (h : memWfFrom lo m = true) (p : Nat × Word → Bool) :
    memWfFrom lo (m.filter p) = true := by
  induction m generalizing lo with
  | nil => rfl
  | cons c m ih =>
    obtain ⟨k, w⟩ := c
    rw [memWfFrom_cons] at h
    by_cases hp : p (k, w) = true
    · rw [List.filter_cons_of_pos hp, memWfFrom_cons]
      exact ⟨h.1, h.2.1, ih h.2.2⟩
    · rw [List.filter_cons_of_neg hp]
      exact memWfFrom_mono (ih h.2.2) (by omega)

/-- A clear keeps the canonical form. -/
theorem wf_memClear {m : Mem} (h : Memory.wf m = true) (cap : Nat) : Memory.wf (memClear cap m) = true :=
  memWfFrom_filter h _

/-- After a clear of `cap` words every one of them reads `+0`. -/
theorem memRead_memClear {m : Mem} (h : Memory.wf m = true) (cap b : Nat) :
    memRead (memClear cap m) b = if b < cap then memDefault else memRead m b :=
  memRead_memClear_from h cap b

/-- A clear of a memory of `cap` words empties it. -/
theorem memClear_of_within {cap : Nat} {m : Mem} (h : memWithin cap m = true) : memClear cap m = [] := by
  simp only [memWithin, List.all_eq_true, decide_eq_true_eq] at h
  simp only [memClear, List.filter_eq_nil_iff, decide_eq_true_eq, Nat.not_le]
  exact h

theorem memWithin_memClear {cap cap' : Nat} {m : Mem} (h : memWithin cap m = true) :
    memWithin cap (memClear cap' m) = true := by
  simp only [memWithin, List.all_eq_true, decide_eq_true_eq, memClear, List.mem_filter] at h ⊢
  exact fun c hc => h c hc.1

/-! ## Canonical memories with equal reads are equal -/

theorem mem_ext_from {lo lo' : Nat} {m m' : Mem} (h : memWfFrom lo m = true) (h' : memWfFrom lo' m' = true)
    (hr : ∀ a, memRead m a = memRead m' a) : m = m' := by
  induction m generalizing lo lo' m' with
  | nil =>
    cases m' with
    | nil => rfl
    | cons c m' =>
      obtain ⟨k, w⟩ := c
      rw [memWfFrom_cons] at h'
      exact absurd (by simpa [memRead] using (hr k).symm) h'.2.1
  | cons c m ih =>
    obtain ⟨k, w⟩ := c
    rw [memWfFrom_cons] at h
    cases m' with
    | nil => exact absurd (by simpa [memRead] using hr k) h.2.1
    | cons c' m' =>
      obtain ⟨k', w'⟩ := c'
      rw [memWfFrom_cons] at h'
      have hkk : k = k' := by
        rcases Nat.lt_trichotomy k k' with hlt | he | hlt
        · have h1 := memRead_of_lt ((memWfFrom_cons k' k' w' m').2 ⟨le_refl _, h'.2⟩) hlt
          have h2 := hr k
          rw [h1] at h2
          exact absurd (by simpa [memRead] using h2) h.2.1
        · exact he
        · have h1 := memRead_of_lt ((memWfFrom_cons k k w m).2 ⟨le_refl _, h.2⟩) hlt
          have h2 := hr k'
          rw [h1] at h2
          exact absurd (by simpa [memRead] using h2.symm) h'.2.1
      subst hkk
      have hw : w = w' := by simpa [memRead] using hr k
      subst hw
      have : m = m' := by
        refine ih h.2.2 h'.2.2 fun a => ?_
        by_cases ha : a = k
        · rw [ha, memRead_of_lt h.2.2 (by omega), memRead_of_lt h'.2.2 (by omega)]
        · simpa [memRead, ha] using hr a
      rw [this]

/-- Two memories in canonical form with equal reads are the same data. -/
theorem mem_ext {m m' : Mem} (h : Memory.wf m = true) (h' : Memory.wf m' = true)
    (hr : ∀ a, memRead m a = memRead m' a) : m = m' := mem_ext_from h h' hr

/-- A list of writes done twice is done once. -/
theorem memWriteList_idem {m : Mem} (h : Memory.wf m = true) (i : Nat) (vs : List Word) :
    memWriteList (memWriteList m i vs) i vs = memWriteList m i vs := by
  have h1 := wf_memWriteList h i vs
  refine mem_ext (wf_memWriteList h1 i vs) h1 fun a => ?_
  rw [memRead_memWriteList h1, memRead_memWriteList h]
  by_cases ha : i ≤ a
  · cases hv : vs[a - i]? <;> simp [ha]
  · simp [ha]

/-! ## Circular addressing -/

/-- A read at any delay stays inside the memory (20_memory.md R73, R74). -/
theorem tapIndex_lt (widx : Nat) (d : Int) {cap : Nat} (h : 0 < cap) : tapIndex widx d cap < cap := by
  unfold tapIndex
  have h1 : ((cap : Int)) ≠ 0 := by omega
  have h2 := Int.emod_nonneg ((widx : Int) - d) h1
  have h3 := Int.emod_lt_of_pos ((widx : Int) - d) (by omega : (0 : Int) < cap)
  omega

/-- A cursor stays inside the memory (R74). -/
theorem advance_lt (x : Nat) {n : Nat} (h : 0 < n) : advance x n < n := Nat.mod_lt _ h

end Sys2Proof.Machine
end

