-- ==== Sys2Proof/Laws/Reset.lean ====
section
/-! SUPPORT. Vectors by index, and the canonical form of every memory through the settings of a channel, up to the reset
state (spec/70_reset_and_hazards.md R430). -/

namespace Sys2Proof.Machine

/-! ## Vectors by index -/

@[simp] theorem getElem_vecMap {α β : Type} {n : Nat} (f : α → β) (v : Vector α n) (k : Fin n) :
    (vecMap f v)[k] = f v[k] := by
  obtain ⟨k, h⟩ := k
  simp [vecMap]

@[simp] theorem getElem_vecOf12 {α : Type} (f : Fin 12 → α) (k : Fin 12) : (vecOf12 f)[k] = f k := by
  fin_cases k <;> rfl

/-! ## Canonical memories of the units -/

/-- The memories of a diffuser and its stages are canonical. -/
structure Diffuser.MemWf (d : Diffuser) : Prop where
  seedV : Memory.wf d.seedV = true
  stage : ∀ k : Fin 12, Memory.wf d.stage[k].core.buf = true

/-- The memories of a multitap delay are canonical. -/
structure Multitap.MemWf (u : Multitap) : Prop where
  buf : Memory.wf u.buf = true
  seedV : Memory.wf u.seedV = true
  tapGain : Memory.wf u.tapGain = true
  tapPos : Memory.wf u.tapPos = true

/-- The memories of a delay line and below are canonical. -/
structure DelayLine.MemWf (l : DelayLine) : Prop where
  q : Memory.wf l.q = true
  delay : Memory.wf l.delay.buf = true
  df : l.df.MemWf

/-- The memories of a channel and below are canonical. -/
structure Channel.MemWf (c : Channel) : Prop where
  pre : Memory.wf c.pre.buf = true
  mt : c.mt.MemWf
  ed : c.ed.MemWf
  line : ∀ j : Fin 12, c.line[j].MemWf

theorem Diffuser.draw_seedV (cfg : Config.Params) (d : Diffuser) :
    (d.draw cfg).seedV = memWriteList d.seedV 0 (generateCross cfg d.seed d.xseed Config.diffDraws) := by
  simp only [Diffuser.draw]

theorem Diffuser.draw_stage (cfg : Config.Params) (d : Diffuser) : (d.draw cfg).stage = d.stage := by
  simp only [Diffuser.draw]

theorem Diffuser.deriveStages_stage (cfg : Config.Params) (d : Diffuser) (k : Fin 12) :
    (d.deriveStages cfg).stage[k] = deriveStage cfg d k.val d.stage[k] := by
  simp only [Diffuser.deriveStages, getElem_vecOf12]

theorem ModDelay.withTaps_buf (u : ModDelay) (t : Taps) : ({ u with taps := t }).buf = u.buf := rfl

theorem ModDelay.withMod_buf (u : ModDelay) (n : Nat) (x y : F) :
    ({ u with dly := n, modA := x, modR := y }).buf = u.buf := rfl

theorem ModDelay.retap_buf (cfg : Config.Params) (u : ModDelay) : (u.retap cfg).buf = u.buf :=
  u.withTaps_buf (tapCalc cfg u.dly u.modA u.phase)

theorem Allpass.withCore_buf (a : Allpass) (c : ModDelay) : ({ a with core := c }).core.buf = c.buf := rfl

theorem deriveStage_buf (cfg : Config.Params) (d : Diffuser) (k : Nat) (a : Allpass) :
    (deriveStage cfg d k a).core.buf = a.core.buf := by
  rw [deriveStage, Allpass.withCore_buf, ModDelay.retap_buf, ModDelay.withMod_buf]

theorem Diffuser.MemWf.draw {d : Diffuser} (h : d.MemWf) (cfg : Config.Params) : (d.draw cfg).MemWf where
  seedV := by
    rw [Diffuser.draw_seedV]
    exact wf_memWriteList h.seedV _ _
  stage := by
    rw [Diffuser.draw_stage]
    exact h.stage

theorem Diffuser.MemWf.deriveStages {d : Diffuser} (h : d.MemWf) (cfg : Config.Params) : (d.deriveStages cfg).MemWf where
  seedV := h.seedV
  stage k := by
    rw [Diffuser.deriveStages_stage, deriveStage_buf]
    exact h.stage k

theorem Diffuser.MemWf.update {cfg : Config.Params} {d : Diffuser} (h : d.MemWf) : (d.update cfg).MemWf :=
  (h.draw cfg).deriveStages cfg

theorem Diffuser.MemWf.mapStages {d : Diffuser} (h : d.MemWf) (f : Allpass → Allpass)
    (hf : ∀ a, (f a).core.buf = a.core.buf) (k : Fin 12) : Memory.wf (vecMap f d.stage)[k].core.buf = true := by
  rw [getElem_vecMap, hf]
  exact h.stage k

theorem Diffuser.MemWf.setFb {d : Diffuser} (h : d.MemWf) (g : F) : (d.setFb g).MemWf :=
  ⟨h.seedV, h.mapStages _ fun _ => rfl⟩

theorem Diffuser.MemWf.setInterp {d : Diffuser} (h : d.MemWf) (b : Bool) : (d.setInterp b).MemWf :=
  ⟨h.seedV, h.mapStages _ fun _ => rfl⟩

theorem Diffuser.MemWf.setModEn {d : Diffuser} (h : d.MemWf) (b : Bool) : (d.setModEn b).MemWf :=
  ⟨h.seedV, h.mapStages _ fun _ => rfl⟩

theorem Diffuser.MemWf.setModA {cfg : Config.Params} {d : Diffuser} (h : d.MemWf) (a : F) : (d.setModA cfg a).MemWf :=
  Diffuser.MemWf.update ⟨h.seedV, h.stage⟩

theorem Diffuser.MemWf.setModR {cfg : Config.Params} {d : Diffuser} (h : d.MemWf) (r : F) : (d.setModR cfg r).MemWf :=
  Diffuser.MemWf.update ⟨h.seedV, h.stage⟩

theorem Diffuser.MemWf.setSeed {cfg : Config.Params} {d : Diffuser} (h : d.MemWf) (w : Word) :
    (d.setSeed cfg w).MemWf := Diffuser.MemWf.update ⟨h.seedV, h.stage⟩

theorem Diffuser.MemWf.setX {cfg : Config.Params} {d : Diffuser} (h : d.MemWf) (x : F) : (d.setX cfg x).MemWf :=
  Diffuser.MemWf.update ⟨h.seedV, h.stage⟩

theorem Diffuser.MemWf.apply {cfg : Config.Params} {d : Diffuser} (h : d.MemWf) (k : Config.DiffuserConfig) :
    (applyDiffuser cfg d k).MemWf := by
  have h1 : ((d.setStages k.stages).setDly cfg k.dly).MemWf := Diffuser.MemWf.update ⟨h.seedV, h.stage⟩
  have h2 : (((d.setStages k.stages).setDly cfg k.dly).setFb k.fb).MemWf := h1.setFb k.fb
  exact (((h2.setModA k.modA).setModR k.modR).setSeed k.seed).setInterp k.interp |>.setModEn k.modEn

theorem Multitap.update_seedV (cfg : Config.Params) (u : Multitap) :
    (u.update cfg).seedV = memWriteList u.seedV 0 (generateCross cfg u.seed u.xseed (3 * Config.maxTaps)) := by
  simp only [Multitap.update, Multitap.deriveTaps, Multitap.draw]

theorem Multitap.update_tapGain (cfg : Config.Params) (u : Multitap) :
    (u.update cfg).tapGain = memWriteList u.tapGain 0 ((List.range Config.maxTaps).map fun i =>
      tapGainOf cfg (memRead (u.draw cfg).seedV (3 * i)) (memRead (u.draw cfg).seedV (3 * i + 1))) := by
  simp only [Multitap.update, Multitap.deriveTaps, Multitap.draw]

theorem Multitap.update_tapPos (cfg : Config.Params) (u : Multitap) :
    (u.update cfg).tapPos = memWriteList u.tapPos 0 ((List.range Config.maxTaps).map fun i =>
      tapPosOf i (memRead (u.draw cfg).seedV (3 * i + 2))) := by
  simp only [Multitap.update, Multitap.deriveTaps, Multitap.draw]

theorem Multitap.update_buf (cfg : Config.Params) (u : Multitap) : (u.update cfg).buf = u.buf := by
  simp only [Multitap.update, Multitap.deriveTaps, Multitap.draw]

theorem Multitap.MemWf.update {cfg : Config.Params} {u : Multitap} (h : u.MemWf) : (u.update cfg).MemWf where
  buf := by
    rw [Multitap.update_buf]
    exact h.buf
  seedV := by
    rw [Multitap.update_seedV]
    exact wf_memWriteList h.seedV _ _
  tapGain := by
    rw [Multitap.update_tapGain]
    exact wf_memWriteList h.tapGain _ _
  tapPos := by
    rw [Multitap.update_tapPos]
    exact wf_memWriteList h.tapPos _ _

theorem Multitap.MemWf.apply {cfg : Config.Params} {u : Multitap} (h : u.MemWf) (k : Config.MultitapConfig) :
    (applyMultitap cfg u k).MemWf := Multitap.MemWf.update ⟨h.buf, h.seedV, h.tapGain, h.tapPos⟩

theorem DelayLine.MemWf.apply {cfg : Config.Params} {l : DelayLine} (h : l.MemWf) (k : Config.LineConfig) :
    (applyLine cfg l k).MemWf := ⟨h.q, h.delay, h.df.apply k.df⟩

theorem Channel.MemWf.setX {cfg : Config.Params} {c : Channel} (h : c.MemWf) (x : F) : (c.setX cfg x).MemWf where
  pre := h.pre
  mt := Multitap.MemWf.update ⟨h.mt.buf, h.mt.seedV, h.mt.tapGain, h.mt.tapPos⟩
  ed := h.ed.setX x
  line j := by
    simp only [Channel.setX, getElem_vecMap]
    exact ⟨(h.line j).q, (h.line j).delay, (h.line j).df.setX x⟩

theorem Channel.MemWf.setDecay {cfg : Config.Params} {c : Channel} (h : c.MemWf) (t : F) : (c.setDecay cfg t).MemWf where
  pre := h.pre
  mt := h.mt
  ed := h.ed
  line j := by
    simp only [Channel.setDecay, getElem_vecMap]
    exact ⟨(h.line j).q, (h.line j).delay, (h.line j).df⟩

theorem Channel.MemWf.apply {cfg : Config.Params} {c : Channel} (h : c.MemWf) (k : Config.ChannelConfig) :
    (applyConfig cfg c k).MemWf := by
  have hb : (applyBelow cfg c k).MemWf := by
    refine ⟨h.pre, h.mt.apply k.mt, h.ed.apply k.ed, fun j => ?_⟩
    simp only [applyBelow, getElem_vecOf12]
    exact (h.line j).apply _
  exact (hb.setX _).setDecay _

/-- Every memory of a channel after reset is canonical. -/
theorem resetChannel_memWf (cfg : Config.Params) (sd : Side) : (resetChannel cfg sd).MemWf := by
  have hd : blankDiffuser.MemWf := ⟨rfl, fun k => by simp only [blankDiffuser, getElem_vecOf12]; rfl⟩
  refine Channel.MemWf.apply ⟨rfl, ⟨rfl, rfl, rfl, rfl⟩, hd, fun j => ?_⟩ _
  simp only [blankChannel, getElem_vecOf12]
  exact ⟨rfl, rfl, hd⟩

/-- Every memory of the reset state is canonical. -/
theorem reset_memWf {r : UnitRef} {m size : Nat} {mem : Mem} (h : unitMem State.reset r m = some (mem, size)) :
    Memory.wf mem = true := by
  have hc : ∀ sd, (State.reset.chan sd).MemWf := by
    rintro (_ | _) <;> exact resetChannel_memWf _ _
  have one : ∀ {k : Nat} {a : Mem} {n : Nat}, Memory.wf a = true → onlyMem k m a n = some (mem, size) →
      Memory.wf mem = true := by
    intro k a n ha h'
    simp only [onlyMem] at h'
    split at h' <;> cases h'
    exact ha
  cases r with
  | rbuf => exact one rfl h
  | io b => exact one (by fin_cases b <;> rfl) h
  | map r =>
    obtain ⟨(sd | ⟨sd, j⟩), k⟩ := r
    · exact one ((hc sd).ed.stage k) h
    · exact one (((hc sd).line j).df.stage k) h
  | diff r =>
    obtain sd | ⟨sd, j⟩ := r
    · exact one (hc sd).ed.seedV h
    · exact one ((hc sd).line j).df.seedV h
  | mdly r =>
    obtain sd | ⟨sd, j⟩ := r
    · exact one (hc sd).pre h
    · exact one ((hc sd).line j).delay h
  | dline sd j => exact one ((hc sd).line j).q h
  | mtap sd =>
    have hm := (hc sd).mt
    match m, h with
    | 0, h => cases h; exact hm.buf
    | 1, h => cases h; exact hm.seedV
    | 2, h => cases h; exact hm.tapGain
    | 3, h => cases h; exact hm.tapPos
  | _ => cases h

end Sys2Proof.Machine
end

