-- ==== Sys2Proof/Laws/Derive.lean ====
section
/-! SUPPORT. The fields of `DERIVE`'s record that the spec fixes (spec/49_engine.md R348, R362; spec/40_rng.md R143) and the
seeds that `ApplyConfig` leaves (R363). -/

namespace Sys2Proof.Machine

@[simp] theorem deriveConfig_xseed (cfg : Config.Params) (p : Vector F 10) (x : F) (sd : Side) :
    (deriveConfig cfg p x sd).xseed = xseedOf sd p[7] := rfl

@[simp] theorem deriveConfig_inMix (cfg : Config.Params) (p : Vector F 10) (x : F) (sd : Side) :
    (deriveConfig cfg p x sd).inMix = x := rfl

theorem deriveConfig_mt_seed (cfg : Config.Params) (p : Vector F 10) (x : F) (sd : Side) :
    (deriveConfig cfg p x sd).mt.seed = (deriveConfig cfg p x .L).mt.seed := by
  simp only [deriveConfig, legalChannel, legalMultitap, withSeedsOf]

theorem deriveConfig_ed_seed (cfg : Config.Params) (p : Vector F 10) (x : F) (sd : Side) :
    (deriveConfig cfg p x sd).ed.seed = (deriveConfig cfg p x .L).ed.seed := by
  simp only [deriveConfig, legalChannel, legalDiffuser, withSeedsOf]

theorem deriveConfig_df_seed (cfg : Config.Params) (p : Vector F 10) (x : F) (sd : Side) (j : Fin 12) :
    (deriveConfig cfg p x sd).line[j].df.seed = (deriveConfig cfg p x .L).line[j].df.seed := by
  simp only [deriveConfig, legalChannel, getElem_vecMap, legalLine, legalDiffuser, withSeedsOf, getElem_vecOf12]

/-- Mix is no argument of the pass: "`mix` ... requires no recompute" (R351, R362 (c)). -/
theorem deriveArgs_set_mix (p : Vector F 10) (m x : F) (sd : Side) : deriveArgs (p.set 4 m) x sd = deriveArgs p x sd := by
  simp [deriveArgs]

@[simp] theorem Diffuser.update_seed (cfg : Config.Params) (d : Diffuser) : (d.update cfg).seed = d.seed := by
  simp only [Diffuser.update, Diffuser.deriveStages, Diffuser.draw]

@[simp] theorem Diffuser.setX_seed (cfg : Config.Params) (d : Diffuser) (x : F) : (d.setX cfg x).seed = d.seed := by
  simp only [Diffuser.setX, Diffuser.update_seed]

@[simp] theorem applyDiffuser_seed (cfg : Config.Params) (d : Diffuser) (k : Config.DiffuserConfig) :
    (applyDiffuser cfg d k).seed = k.seed := by
  simp only [applyDiffuser, Diffuser.setModEn, Diffuser.setInterp, Diffuser.setSeed, Diffuser.update_seed]

@[simp] theorem Multitap.update_seed (cfg : Config.Params) (u : Multitap) : (u.update cfg).seed = u.seed := by
  simp only [Multitap.update, Multitap.deriveTaps, Multitap.draw]

@[simp] theorem applyMultitap_seed (cfg : Config.Params) (u : Multitap) (k : Config.MultitapConfig) :
    (applyMultitap cfg u k).seed = k.seed := by
  simp only [applyMultitap, Multitap.setSeed, Multitap.update_seed]

@[simp] theorem applyConfig_mt_seed (cfg : Config.Params) (c : Channel) (k : Config.ChannelConfig) :
    (applyConfig cfg c k).mt.seed = k.mt.seed := by
  simp only [applyConfig, Channel.setDecay, Channel.setX, applyBelow, Multitap.setX, Multitap.update_seed, applyMultitap_seed]

@[simp] theorem applyConfig_ed_seed (cfg : Config.Params) (c : Channel) (k : Config.ChannelConfig) :
    (applyConfig cfg c k).ed.seed = k.ed.seed := by
  simp only [applyConfig, Channel.setDecay, Channel.setX, applyBelow, Diffuser.setX_seed, applyDiffuser_seed]

@[simp] theorem applyConfig_df_seed (cfg : Config.Params) (c : Channel) (k : Config.ChannelConfig) (j : Fin 12) :
    (applyConfig cfg c k).line[j].df.seed = k.line[j].df.seed := by
  simp only [applyConfig, Channel.setDecay, Channel.setX, applyBelow, getElem_vecMap, getElem_vecOf12, DelayLine.setFb,
    applyLine, Diffuser.setX_seed, applyDiffuser_seed]

end Sys2Proof.Machine
end

