-- ==== Sys2Proof/Laws/Encoding.lean ====
section
/-! SUPPORT. The fields of a command word and the word of its fields are inverse to each other (spec/30_encoding.md R100). -/

namespace Sys2Proof

@[simp] theorem opcodeField_packCommand (op : BitVec 8) (u : UnitAddr) (sub : SubField) (imm : Word) :
    opcodeField (packCommand op u sub imm) = op := by
  ext i hi
  simp only [opcodeField, packCommand, BitVec.getElem_extractLsb', BitVec.getLsbD_append]
  have h1 : ¬ 56 + i < 32 := by omega
  have h2 : ¬ 56 + i - 32 < 8 := by omega
  have h3 : ¬ 56 + i - 32 - 8 < 16 := by omega
  have h4 : 56 + i - 32 - 8 - 16 = i := by omega
  simp [h1, h2, h3, h4, BitVec.getLsbD_eq_getElem hi]

@[simp] theorem unitField_packCommand (op : BitVec 8) (u : UnitAddr) (sub : SubField) (imm : Word) :
    unitField (packCommand op u sub imm) = u := by
  ext i hi
  simp only [unitField, packCommand, BitVec.getElem_extractLsb', BitVec.getLsbD_append]
  have h1 : ¬ 40 + i < 32 := by omega
  have h2 : ¬ 40 + i - 32 < 8 := by omega
  have h3 : 40 + i - 32 - 8 < 16 := by omega
  have h4 : 40 + i - 32 - 8 = i := by omega
  simp [h1, h2, h4, hi]

@[simp] theorem subField_packCommand (op : BitVec 8) (u : UnitAddr) (sub : SubField) (imm : Word) :
    subField (packCommand op u sub imm) = sub := by
  ext i hi
  simp only [subField, packCommand, BitVec.getElem_extractLsb', BitVec.getLsbD_append]
  have h1 : ¬ 32 + i < 32 := by omega
  have h2 : 32 + i - 32 = i := by omega
  simp [h2, hi]

@[simp] theorem immField_packCommand (op : BitVec 8) (u : UnitAddr) (sub : SubField) (imm : Word) :
    immField (packCommand op u sub imm) = imm := by
  ext i hi
  simp only [immField, packCommand, BitVec.getElem_extractLsb', BitVec.getLsbD_append]
  simp [hi]

/-- A word is the word of its fields. -/
theorem packCommand_fields (w : Command) :
    packCommand (opcodeField w) (unitField w) (subField w) (immField w) = w := by
  ext i hi
  rw [← BitVec.getLsbD_eq_getElem hi, ← BitVec.getLsbD_eq_getElem hi]
  simp only [packCommand, opcodeField, unitField, subField, immField, BitVec.getLsbD_append, BitVec.getLsbD_extractLsb']
  by_cases h1 : i < 32
  · simp [h1]
  · by_cases h2 : i < 40
    · have : i - 32 < 8 := by omega
      simp [h1, this, show 32 + (i - 32) = i by omega]
    · by_cases h3 : i < 56
      · have a : ¬ i - 32 < 8 := by omega
        have b : i - 32 - 8 < 16 := by omega
        simp [h1, a, b, show 40 + (i - 32 - 8) = i by omega]
      · have a : ¬ i - 32 < 8 := by omega
        have b : ¬ i - 32 - 8 < 16 := by omega
        have c : i - 32 - 8 - 16 < 8 := by omega
        simp [h1, a, b, c, show 56 + (i - 32 - 8 - 16) = i by omega]

end Sys2Proof
end

