-- ==== Sys2Proof/Laws/Float.lean ====
section
/-! SUPPORT. The laws of the one rounding of the binary32 arithmetic (spec/00_scope.md R11): it is exact on binary32 values
and monotone, and magnitudes are ordered as their patterns. -/

namespace Sys2Proof.Machine

/-! ## Magnitude patterns and their units -/

/-- The magnitude of a pattern below 2^31, in units of 2^-149. -/
def unitsOf (m : Nat) : Nat := if m / 2 ^ 23 = 0 then m % 2 ^ 23 else (2 ^ 23 + m % 2 ^ 23) * 2 ^ (m / 2 ^ 23 - 1)

theorem magUnits_eq (x : F) : magUnits x = unitsOf (magBits x) := rfl

theorem magBits_lt (x : F) : magBits x < 2 ^ 31 := Nat.mod_lt _ (by decide)

/-- The next pattern has a larger magnitude. -/
theorem unitsOf_lt_succ (m : Nat) : unitsOf m < unitsOf (m + 1) := by
  unfold unitsOf
  have h := Nat.div_add_mod m (2 ^ 23)
  have h2 := Nat.mod_lt m (show 0 < 2 ^ 23 by decide)
  generalize he : m / 2 ^ 23 = e at *
  generalize hf : m % 2 ^ 23 = f at *
  by_cases hw : f + 1 < 2 ^ 23
  · have e1 : (m + 1) / 2 ^ 23 = e := by omega
    have f1 : (m + 1) % 2 ^ 23 = f + 1 := by omega
    rw [e1, f1]
    split
    · omega
    · exact Nat.mul_lt_mul_of_pos_right (by omega) (Nat.two_pow_pos _)
  · have e1 : (m + 1) / 2 ^ 23 = e + 1 := by omega
    have f1 : (m + 1) % 2 ^ 23 = 0 := by omega
    rw [e1, f1]
    cases e with
    | zero => simp; omega
    | succ e =>
      simp only [Nat.add_eq_zero_iff, one_ne_zero, and_false, if_false, Nat.add_sub_cancel, add_zero]
      have : (2 ^ 23 + f) < 2 ^ 23 * 2 := by omega
      calc (2 ^ 23 + f) * 2 ^ e < (2 ^ 23 * 2) * 2 ^ e := Nat.mul_lt_mul_of_pos_right this (Nat.two_pow_pos _)
        _ = 2 ^ 23 * 2 ^ (e + 1) := by rw [pow_succ]; ring

/-- Magnitudes are ordered as their patterns. -/
theorem unitsOf_strictMono : StrictMono unitsOf := strictMono_nat_of_lt_succ unitsOf_lt_succ

theorem unitsOf_le_iff {a b : Nat} : unitsOf a ≤ unitsOf b ↔ a ≤ b := unitsOf_strictMono.le_iff_le

theorem unitsOf_lt_iff {a b : Nat} : unitsOf a < unitsOf b ↔ a < b := unitsOf_strictMono.lt_iff_lt

/-! ## Rounding to nearest, ties to even -/

/-- The quotient `num / u` rounded to the nearest integer, ties to even. -/
def halfEven (num u : Nat) : Nat :=
  if decide (u < 2 * (num % u)) || (2 * (num % u) == u && num / u % 2 == 1) then num / u + 1 else num / u

/-- The exponent of the last place of a quotient, in units. -/
def lastPlace (num den : Nat) : Nat := (num / den).log2 - 23

theorem roundMag_eq (num den : Nat) :
    roundMag num den =
      min (lastPlace num den * 2 ^ 23 + halfEven num (den * 2 ^ lastPlace num den)) infBits := rfl

theorem halfEven_ge (num u : Nat) : num / u ≤ halfEven num u := by
  unfold halfEven; split <;> omega

theorem halfEven_le (num u : Nat) : halfEven num u ≤ num / u + 1 := by
  unfold halfEven; split <;> omega

/-- An exact quotient is not changed. -/
theorem halfEven_mul (r : Nat) {u : Nat} (hu : 0 < u) : halfEven (r * u) u = r := by
  unfold halfEven
  have h1 : r * u % u = 0 := Nat.mul_mod_left r u
  have h2 : r * u / u = r := Nat.mul_div_cancel r hu
  have h3 : ¬ (0 = u) := by omega
  simp [h1, h2, h3]

/-- Rounding to nearest is monotone. -/
theorem halfEven_mono {n1 u1 n2 u2 : Nat} (h1 : 0 < u1) (h2 : 0 < u2) (h : n1 * u2 ≤ n2 * u1) :
    halfEven n1 u1 ≤ halfEven n2 u2 := by
  have d1 := Nat.div_add_mod n1 u1
  have d2 := Nat.div_add_mod n2 u2
  have m1 := Nat.mod_lt n1 h1
  have m2 := Nat.mod_lt n2 h2
  have hr : n1 / u1 ≤ n2 / u2 := by
    rw [Nat.le_div_iff_mul_le h2]
    have : n1 / u1 * u2 * u1 ≤ n2 * u1 := by
      calc n1 / u1 * u2 * u1 = (u1 * (n1 / u1)) * u2 := by ring
        _ ≤ n1 * u2 := Nat.mul_le_mul_right _ (by omega)
        _ ≤ n2 * u1 := h
    exact Nat.le_of_mul_le_mul_right this h1
  rcases Nat.lt_or_ge (n1 / u1) (n2 / u2) with hlt | hge
  · have := halfEven_le n1 u1
    have := halfEven_ge n2 u2
    omega
  · have he : n1 / u1 = n2 / u2 := le_antisymm hr hge
    unfold halfEven
    rw [← he] at d2 ⊢
    generalize n1 / u1 = r at *
    generalize n1 % u1 = a at *
    generalize n2 % u2 = b at *
    have hab : a * u2 ≤ b * u1 := by
      have e1 : n1 * u2 = u1 * r * u2 + a * u2 := by rw [← d1]; ring
      have e2 : n2 * u1 = u1 * r * u2 + b * u1 := by rw [← d2]; ring
      omega
    by_cases hup : (decide (u1 < 2 * a) || (2 * a == u1 && r % 2 == 1)) = true
    · have hup2 : (decide (u2 < 2 * b) || (2 * b == u2 && r % 2 == 1)) = true := by
        simp only [Bool.or_eq_true, decide_eq_true_eq, Bool.and_eq_true, beq_iff_eq] at hup ⊢
        rcases hup with hup | ⟨hup, ho⟩
        · left
          have : u1 * u2 < 2 * b * u1 := by nlinarith
          nlinarith
        · have : u1 * u2 ≤ 2 * b * u1 := by nlinarith
          have h3 : u2 ≤ 2 * b := Nat.le_of_mul_le_mul_left (by linarith [mul_comm u1 (2 * b)]) h1
          rcases Nat.lt_or_ge u2 (2 * b) with h4 | h4
          · exact .inl h4
          · exact .inr ⟨by omega, ho⟩
      rw [if_pos hup, if_pos hup2]
    · rw [if_neg hup]
      split <;> omega

theorem log2_unitsOf_sub (m : Nat) : (unitsOf m).log2 - 23 = m / 2 ^ 23 - 1 := by
  unfold unitsOf
  have h2 := Nat.mod_lt m (show 0 < 2 ^ 23 by decide)
  generalize m / 2 ^ 23 = e at *
  generalize m % 2 ^ 23 = f at *
  split
  · rename_i he
    subst he
    have : f.log2 < 23 ∨ f = 0 := by
      rcases Nat.eq_zero_or_pos f with h | h
      · exact .inr h
      · exact .inl ((Nat.log2_lt (by omega)).2 h2)
    rcases this with h | h
    · omega
    · simp [h]
  · have hne : (2 ^ 23 + f) * 2 ^ (e - 1) ≠ 0 := by positivity
    have hlo : 23 + (e - 1) ≤ ((2 ^ 23 + f) * 2 ^ (e - 1)).log2 := by
      rw [Nat.le_log2 hne, pow_add]
      exact Nat.mul_le_mul_right _ (by omega)
    have hhi : ((2 ^ 23 + f) * 2 ^ (e - 1)).log2 < 24 + (e - 1) := by
      rw [Nat.log2_lt hne, pow_add]
      exact Nat.mul_lt_mul_of_pos_right (by omega) (Nat.two_pow_pos _)
    omega

/-- Rounding a binary32 magnitude gives it back. -/
theorem roundMag_exact (m : Nat) {den : Nat} (hd : 0 < den) : roundMag (unitsOf m * den) den = min m infBits := by
  have hq : unitsOf m * den / den = unitsOf m := Nat.mul_div_cancel _ hd
  rw [roundMag_eq]
  have hk : lastPlace (unitsOf m * den) den = m / 2 ^ 23 - 1 := by
    unfold lastPlace
    rw [hq, log2_unitsOf_sub]
  rw [hk]
  congr 1
  have hm := Nat.div_add_mod m (2 ^ 23)
  unfold unitsOf
  split
  · rename_i he
    rw [he]
    simp only [zero_tsub, zero_mul, pow_zero, mul_one, zero_add]
    rw [halfEven_mul _ hd]
    omega
  · rename_i he
    have : (2 ^ 23 + m % 2 ^ 23) * 2 ^ (m / 2 ^ 23 - 1) * den
        = (2 ^ 23 + m % 2 ^ 23) * (den * 2 ^ (m / 2 ^ 23 - 1)) := by ring
    rw [this, halfEven_mul _ (Nat.mul_pos hd (Nat.two_pow_pos _))]
    omega

/-- The rounding of a magnitude is monotone in its exact value. -/
theorem roundMag_mono {n1 d1 n2 d2 : Nat} (h1 : 0 < d1) (h2 : 0 < d2) (h : n1 * d2 ≤ n2 * d1) :
    roundMag n1 d1 ≤ roundMag n2 d2 := by
  rw [roundMag_eq, roundMag_eq]
  refine min_le_min_right _ ?_
  have hq : n1 / d1 ≤ n2 / d2 := by
    rw [Nat.le_div_iff_mul_le h2]
    have e : n1 / d1 * d1 ≤ n1 := Nat.div_mul_le_self n1 d1
    have : n1 / d1 * d2 * d1 ≤ n2 * d1 := by
      calc n1 / d1 * d2 * d1 = (n1 / d1 * d1) * d2 := by ring
        _ ≤ n1 * d2 := Nat.mul_le_mul_right _ e
        _ ≤ n2 * d1 := h
    exact Nat.le_of_mul_le_mul_right this h1
  have hk : lastPlace n1 d1 ≤ lastPlace n2 d2 := by
    unfold lastPlace
    have : (n1 / d1).log2 ≤ (n2 / d2).log2 := by
      rw [Nat.log2_eq_log_two, Nat.log2_eq_log_two]
      exact Nat.log_mono_right hq
    omega
  generalize hk1 : lastPlace n1 d1 = k1 at *
  generalize hk2 : lastPlace n2 d2 = k2 at *
  rcases Nat.eq_or_lt_of_le hk with he | hlt
  · subst he
    have := halfEven_mono (n1 := n1) (u1 := d1 * 2 ^ k1) (n2 := n2) (u2 := d2 * 2 ^ k1)
      (Nat.mul_pos h1 (Nat.two_pow_pos _)) (Nat.mul_pos h2 (Nat.two_pow_pos _)) (by
        calc n1 * (d2 * 2 ^ k1) = (n1 * d2) * 2 ^ k1 := by ring
          _ ≤ (n2 * d1) * 2 ^ k1 := Nat.mul_le_mul_right _ h
          _ = n2 * (d1 * 2 ^ k1) := by ring)
    omega
  · have b1 : halfEven n1 (d1 * 2 ^ k1) ≤ 2 ^ 24 := by
      have := halfEven_le n1 (d1 * 2 ^ k1)
      have hlt1 : n1 / (d1 * 2 ^ k1) < 2 ^ 24 := by
        rw [← Nat.div_div_eq_div_mul, Nat.div_lt_iff_lt_mul (Nat.two_pow_pos _), ← pow_add]
        rcases Nat.eq_zero_or_pos (n1 / d1) with h0 | h0
        · rw [h0]; positivity
        · rw [← Nat.log2_lt (by omega)]
          unfold lastPlace at hk1
          omega
      omega
    have b2 : 2 ^ 23 ≤ halfEven n2 (d2 * 2 ^ k2) := by
      refine le_trans ?_ (halfEven_ge _ _)
      rw [← Nat.div_div_eq_div_mul, Nat.le_div_iff_mul_le (Nat.two_pow_pos _), ← pow_add]
      unfold lastPlace at hk2
      have hne : n2 / d2 ≠ 0 := by
        intro h0
        rw [h0] at hk2
        simp at hk2
        omega
      rw [← Nat.le_log2 hne]
      omega
    have : (k1 + 1) * 2 ^ 23 ≤ k2 * 2 ^ 23 := Nat.mul_le_mul_right _ hlt
    omega

theorem roundMag_le_inf (num den : Nat) : roundMag num den ≤ infBits := by
  rw [roundMag_eq]; exact min_le_right _ _

/-- A value not above a binary32 magnitude rounds to no more than it. -/
theorem roundMag_le {num den m : Nat} (hd : 0 < den) (h : num ≤ unitsOf m * den) : roundMag num den ≤ m := by
  refine le_trans (roundMag_mono hd hd (Nat.mul_le_mul_right den h)) ?_
  rw [roundMag_exact m hd]
  exact min_le_left _ _

/-- A value not below a finite binary32 magnitude rounds to no less than it. -/
theorem le_roundMag {num den m : Nat} (hd : 0 < den) (hm : m ≤ infBits) (h : unitsOf m * den ≤ num) :
    m ≤ roundMag num den := by
  have := roundMag_mono hd hd (Nat.mul_le_mul_right den h)
  rw [roundMag_exact m hd, min_eq_left hm] at this
  exact this

end Sys2Proof.Machine
end

