-- ==== Sys2Proof/Laws/State.lean ====
section
/-! SUPPORT. One lemma for each field of the state under each update, so that no proof unfolds a record update; and what
the unit getters give after the unit setters (spec/10_state.md R24). -/

namespace Sys2Proof.Machine

/-! ## Updates of the state's own fields -/

@[simp] theorem State.raise_sys (s : State) (c : FaultCause) : (s.raise c).sys = { status := s.sys.status ||| causeBit c, faultCode := causeCode c, faultCmd := s.word } := rfl
@[simp] theorem State.raise_resA (s : State) (c : FaultCause) : (s.raise c).resA = s.resA := rfl
@[simp] theorem State.raise_resC (s : State) (c : FaultCause) : (s.raise c).resC = s.resC := rfl
@[simp] theorem State.raise_eng (s : State) (c : FaultCause) : (s.raise c).eng = s.eng := rfl
@[simp] theorem State.raise_rng (s : State) (c : FaultCause) : (s.raise c).rng = s.rng := rfl
@[simp] theorem State.raise_rbuf (s : State) (c : FaultCause) : (s.raise c).rbuf = s.rbuf := rfl
@[simp] theorem State.raise_io (s : State) (c : FaultCause) : (s.raise c).io = s.io := rfl
@[simp] theorem State.raise_left (s : State) (c : FaultCause) : (s.raise c).left = s.left := rfl
@[simp] theorem State.raise_right (s : State) (c : FaultCause) : (s.raise c).right = s.right := rfl
@[simp] theorem State.raise_port (s : State) (c : FaultCause) : (s.raise c).port = s.port := rfl
@[simp] theorem State.raise_word (s : State) (c : FaultCause) : (s.raise c).word = s.word := rfl
@[simp] theorem State.raise_queue (s : State) (c : FaultCause) : (s.raise c).queue = s.queue := rfl

@[simp] theorem State.clearFaults_sys (s : State) : (s.clearFaults).sys = { status := 0, faultCode := 0, faultCmd := 0 } := rfl
@[simp] theorem State.clearFaults_resA (s : State) : (s.clearFaults).resA = s.resA := rfl
@[simp] theorem State.clearFaults_resC (s : State) : (s.clearFaults).resC = s.resC := rfl
@[simp] theorem State.clearFaults_eng (s : State) : (s.clearFaults).eng = s.eng := rfl
@[simp] theorem State.clearFaults_rng (s : State) : (s.clearFaults).rng = s.rng := rfl
@[simp] theorem State.clearFaults_rbuf (s : State) : (s.clearFaults).rbuf = s.rbuf := rfl
@[simp] theorem State.clearFaults_io (s : State) : (s.clearFaults).io = s.io := rfl
@[simp] theorem State.clearFaults_left (s : State) : (s.clearFaults).left = s.left := rfl
@[simp] theorem State.clearFaults_right (s : State) : (s.clearFaults).right = s.right := rfl
@[simp] theorem State.clearFaults_port (s : State) : (s.clearFaults).port = s.port := rfl
@[simp] theorem State.clearFaults_word (s : State) : (s.clearFaults).word = s.word := rfl
@[simp] theorem State.clearFaults_queue (s : State) : (s.clearFaults).queue = s.queue := rfl

@[simp] theorem State.accept_sys (s : State) (p : Port) (w : Command) (q : List Event) : (s.accept p w q).sys = s.sys := rfl
@[simp] theorem State.accept_resA (s : State) (p : Port) (w : Command) (q : List Event) : (s.accept p w q).resA = s.resA := rfl
@[simp] theorem State.accept_resC (s : State) (p : Port) (w : Command) (q : List Event) : (s.accept p w q).resC = s.resC := rfl
@[simp] theorem State.accept_eng (s : State) (p : Port) (w : Command) (q : List Event) : (s.accept p w q).eng = s.eng := rfl
@[simp] theorem State.accept_rng (s : State) (p : Port) (w : Command) (q : List Event) : (s.accept p w q).rng = s.rng := rfl
@[simp] theorem State.accept_rbuf (s : State) (p : Port) (w : Command) (q : List Event) : (s.accept p w q).rbuf = s.rbuf := rfl
@[simp] theorem State.accept_io (s : State) (p : Port) (w : Command) (q : List Event) : (s.accept p w q).io = s.io := rfl
@[simp] theorem State.accept_left (s : State) (p : Port) (w : Command) (q : List Event) : (s.accept p w q).left = s.left := rfl
@[simp] theorem State.accept_right (s : State) (p : Port) (w : Command) (q : List Event) : (s.accept p w q).right = s.right := rfl
@[simp] theorem State.accept_port (s : State) (p : Port) (w : Command) (q : List Event) : (s.accept p w q).port = p := rfl
@[simp] theorem State.accept_word (s : State) (p : Port) (w : Command) (q : List Event) : (s.accept p w q).word = w := rfl
@[simp] theorem State.accept_queue (s : State) (p : Port) (w : Command) (q : List Event) : (s.accept p w q).queue = q := rfl

@[simp] theorem State.issue_sys (s : State) (p : Port) (w : Command) : (s.issue p w).sys = s.sys := rfl
@[simp] theorem State.issue_resA (s : State) (p : Port) (w : Command) : (s.issue p w).resA = s.resA := rfl
@[simp] theorem State.issue_resC (s : State) (p : Port) (w : Command) : (s.issue p w).resC = s.resC := rfl
@[simp] theorem State.issue_eng (s : State) (p : Port) (w : Command) : (s.issue p w).eng = s.eng := rfl
@[simp] theorem State.issue_rng (s : State) (p : Port) (w : Command) : (s.issue p w).rng = s.rng := rfl
@[simp] theorem State.issue_rbuf (s : State) (p : Port) (w : Command) : (s.issue p w).rbuf = s.rbuf := rfl
@[simp] theorem State.issue_io (s : State) (p : Port) (w : Command) : (s.issue p w).io = s.io := rfl
@[simp] theorem State.issue_left (s : State) (p : Port) (w : Command) : (s.issue p w).left = s.left := rfl
@[simp] theorem State.issue_right (s : State) (p : Port) (w : Command) : (s.issue p w).right = s.right := rfl
@[simp] theorem State.issue_port (s : State) (p : Port) (w : Command) : (s.issue p w).port = s.port := rfl
@[simp] theorem State.issue_word (s : State) (p : Port) (w : Command) : (s.issue p w).word = s.word := rfl
@[simp] theorem State.issue_queue (s : State) (p : Port) (w : Command) : (s.issue p w).queue = .command p w :: s.queue := rfl

@[simp] theorem State.setRng_sys (s : State) (r : Rng) : (s.setRng r).sys = s.sys := rfl
@[simp] theorem State.setRng_resA (s : State) (r : Rng) : (s.setRng r).resA = s.resA := rfl
@[simp] theorem State.setRng_resC (s : State) (r : Rng) : (s.setRng r).resC = s.resC := rfl
@[simp] theorem State.setRng_eng (s : State) (r : Rng) : (s.setRng r).eng = s.eng := rfl
@[simp] theorem State.setRng_rng (s : State) (r : Rng) : (s.setRng r).rng = r := rfl
@[simp] theorem State.setRng_rbuf (s : State) (r : Rng) : (s.setRng r).rbuf = s.rbuf := rfl
@[simp] theorem State.setRng_io (s : State) (r : Rng) : (s.setRng r).io = s.io := rfl
@[simp] theorem State.setRng_left (s : State) (r : Rng) : (s.setRng r).left = s.left := rfl
@[simp] theorem State.setRng_right (s : State) (r : Rng) : (s.setRng r).right = s.right := rfl
@[simp] theorem State.setRng_port (s : State) (r : Rng) : (s.setRng r).port = s.port := rfl
@[simp] theorem State.setRng_word (s : State) (r : Rng) : (s.setRng r).word = s.word := rfl
@[simp] theorem State.setRng_queue (s : State) (r : Rng) : (s.setRng r).queue = s.queue := rfl

@[simp] theorem State.setRbuf_sys (s : State) (b : Rbuf) : (s.setRbuf b).sys = s.sys := rfl
@[simp] theorem State.setRbuf_resA (s : State) (b : Rbuf) : (s.setRbuf b).resA = s.resA := rfl
@[simp] theorem State.setRbuf_resC (s : State) (b : Rbuf) : (s.setRbuf b).resC = s.resC := rfl
@[simp] theorem State.setRbuf_eng (s : State) (b : Rbuf) : (s.setRbuf b).eng = s.eng := rfl
@[simp] theorem State.setRbuf_rng (s : State) (b : Rbuf) : (s.setRbuf b).rng = s.rng := rfl
@[simp] theorem State.setRbuf_rbuf (s : State) (b : Rbuf) : (s.setRbuf b).rbuf = b := rfl
@[simp] theorem State.setRbuf_io (s : State) (b : Rbuf) : (s.setRbuf b).io = s.io := rfl
@[simp] theorem State.setRbuf_left (s : State) (b : Rbuf) : (s.setRbuf b).left = s.left := rfl
@[simp] theorem State.setRbuf_right (s : State) (b : Rbuf) : (s.setRbuf b).right = s.right := rfl
@[simp] theorem State.setRbuf_port (s : State) (b : Rbuf) : (s.setRbuf b).port = s.port := rfl
@[simp] theorem State.setRbuf_word (s : State) (b : Rbuf) : (s.setRbuf b).word = s.word := rfl
@[simp] theorem State.setRbuf_queue (s : State) (b : Rbuf) : (s.setRbuf b).queue = s.queue := rfl

@[simp] theorem State.setEng_sys (s : State) (e : Engine) : (s.setEng e).sys = s.sys := rfl
@[simp] theorem State.setEng_resA (s : State) (e : Engine) : (s.setEng e).resA = s.resA := rfl
@[simp] theorem State.setEng_resC (s : State) (e : Engine) : (s.setEng e).resC = s.resC := rfl
@[simp] theorem State.setEng_eng (s : State) (e : Engine) : (s.setEng e).eng = e := rfl
@[simp] theorem State.setEng_rng (s : State) (e : Engine) : (s.setEng e).rng = s.rng := rfl
@[simp] theorem State.setEng_rbuf (s : State) (e : Engine) : (s.setEng e).rbuf = s.rbuf := rfl
@[simp] theorem State.setEng_io (s : State) (e : Engine) : (s.setEng e).io = s.io := rfl
@[simp] theorem State.setEng_left (s : State) (e : Engine) : (s.setEng e).left = s.left := rfl
@[simp] theorem State.setEng_right (s : State) (e : Engine) : (s.setEng e).right = s.right := rfl
@[simp] theorem State.setEng_port (s : State) (e : Engine) : (s.setEng e).port = s.port := rfl
@[simp] theorem State.setEng_word (s : State) (e : Engine) : (s.setEng e).word = s.word := rfl
@[simp] theorem State.setEng_queue (s : State) (e : Engine) : (s.setEng e).queue = s.queue := rfl

@[simp] theorem State.setIo_sys (s : State) (b : Fin 4) (m : Mem) : (s.setIo b m).sys = s.sys := rfl
@[simp] theorem State.setIo_resA (s : State) (b : Fin 4) (m : Mem) : (s.setIo b m).resA = s.resA := rfl
@[simp] theorem State.setIo_resC (s : State) (b : Fin 4) (m : Mem) : (s.setIo b m).resC = s.resC := rfl
@[simp] theorem State.setIo_eng (s : State) (b : Fin 4) (m : Mem) : (s.setIo b m).eng = s.eng := rfl
@[simp] theorem State.setIo_rng (s : State) (b : Fin 4) (m : Mem) : (s.setIo b m).rng = s.rng := rfl
@[simp] theorem State.setIo_rbuf (s : State) (b : Fin 4) (m : Mem) : (s.setIo b m).rbuf = s.rbuf := rfl
@[simp] theorem State.setIo_io (s : State) (b : Fin 4) (m : Mem) : (s.setIo b m).io = s.io.set b m := rfl
@[simp] theorem State.setIo_left (s : State) (b : Fin 4) (m : Mem) : (s.setIo b m).left = s.left := rfl
@[simp] theorem State.setIo_right (s : State) (b : Fin 4) (m : Mem) : (s.setIo b m).right = s.right := rfl
@[simp] theorem State.setIo_port (s : State) (b : Fin 4) (m : Mem) : (s.setIo b m).port = s.port := rfl
@[simp] theorem State.setIo_word (s : State) (b : Fin 4) (m : Mem) : (s.setIo b m).word = s.word := rfl
@[simp] theorem State.setIo_queue (s : State) (b : Fin 4) (m : Mem) : (s.setIo b m).queue = s.queue := rfl

@[simp] theorem State.putBlock_sys (s : State) (b : Fin 4) (o : List F) : (s.putBlock b o).sys = s.sys := rfl
@[simp] theorem State.putBlock_resA (s : State) (b : Fin 4) (o : List F) : (s.putBlock b o).resA = s.resA := rfl
@[simp] theorem State.putBlock_resC (s : State) (b : Fin 4) (o : List F) : (s.putBlock b o).resC = s.resC := rfl
@[simp] theorem State.putBlock_eng (s : State) (b : Fin 4) (o : List F) : (s.putBlock b o).eng = s.eng := rfl
@[simp] theorem State.putBlock_rng (s : State) (b : Fin 4) (o : List F) : (s.putBlock b o).rng = s.rng := rfl
@[simp] theorem State.putBlock_rbuf (s : State) (b : Fin 4) (o : List F) : (s.putBlock b o).rbuf = s.rbuf := rfl
@[simp] theorem State.putBlock_io (s : State) (b : Fin 4) (o : List F) : (s.putBlock b o).io = s.io.set b (memWriteList s.io[b] 0 o) := rfl
@[simp] theorem State.putBlock_left (s : State) (b : Fin 4) (o : List F) : (s.putBlock b o).left = s.left := rfl
@[simp] theorem State.putBlock_right (s : State) (b : Fin 4) (o : List F) : (s.putBlock b o).right = s.right := rfl
@[simp] theorem State.putBlock_port (s : State) (b : Fin 4) (o : List F) : (s.putBlock b o).port = s.port := rfl
@[simp] theorem State.putBlock_word (s : State) (b : Fin 4) (o : List F) : (s.putBlock b o).word = s.word := rfl
@[simp] theorem State.putBlock_queue (s : State) (b : Fin 4) (o : List F) : (s.putBlock b o).queue = s.queue := rfl

@[simp] theorem State.clearChannels_sys (s : State) : (s.clearChannels).sys = s.sys := rfl
@[simp] theorem State.clearChannels_resA (s : State) : (s.clearChannels).resA = s.resA := rfl
@[simp] theorem State.clearChannels_resC (s : State) : (s.clearChannels).resC = s.resC := rfl
@[simp] theorem State.clearChannels_eng (s : State) : (s.clearChannels).eng = s.eng := rfl
@[simp] theorem State.clearChannels_rng (s : State) : (s.clearChannels).rng = s.rng := rfl
@[simp] theorem State.clearChannels_rbuf (s : State) : (s.clearChannels).rbuf = s.rbuf := rfl
@[simp] theorem State.clearChannels_io (s : State) : (s.clearChannels).io = s.io := rfl
@[simp] theorem State.clearChannels_left (s : State) : (s.clearChannels).left = s.left.clear := rfl
@[simp] theorem State.clearChannels_right (s : State) : (s.clearChannels).right = s.right.clear := rfl
@[simp] theorem State.clearChannels_port (s : State) : (s.clearChannels).port = s.port := rfl
@[simp] theorem State.clearChannels_word (s : State) : (s.clearChannels).word = s.word := rfl
@[simp] theorem State.clearChannels_queue (s : State) : (s.clearChannels).queue = s.queue := rfl

/-! ## The result register -/

@[simp] theorem State.setRes_sys (s : State) (v : Word) : (s.setRes v).sys = s.sys := by
  unfold State.setRes; split <;> rfl
@[simp] theorem State.setRes_eng (s : State) (v : Word) : (s.setRes v).eng = s.eng := by
  unfold State.setRes; split <;> rfl
@[simp] theorem State.setRes_rng (s : State) (v : Word) : (s.setRes v).rng = s.rng := by
  unfold State.setRes; split <;> rfl
@[simp] theorem State.setRes_rbuf (s : State) (v : Word) : (s.setRes v).rbuf = s.rbuf := by
  unfold State.setRes; split <;> rfl
@[simp] theorem State.setRes_io (s : State) (v : Word) : (s.setRes v).io = s.io := by
  unfold State.setRes; split <;> rfl
@[simp] theorem State.setRes_left (s : State) (v : Word) : (s.setRes v).left = s.left := by
  unfold State.setRes; split <;> rfl
@[simp] theorem State.setRes_right (s : State) (v : Word) : (s.setRes v).right = s.right := by
  unfold State.setRes; split <;> rfl
@[simp] theorem State.setRes_port (s : State) (v : Word) : (s.setRes v).port = s.port := by
  unfold State.setRes; split <;> rfl
@[simp] theorem State.setRes_word (s : State) (v : Word) : (s.setRes v).word = s.word := by
  unfold State.setRes; split <;> rfl
@[simp] theorem State.setRes_queue (s : State) (v : Word) : (s.setRes v).queue = s.queue := by
  unfold State.setRes; split <;> rfl

@[simp] theorem State.res_setRes (s : State) (v : Word) : (s.setRes v).res s.port = v := by
  unfold State.setRes; cases s.port <;> rfl

theorem State.res_setRes_of_ne (s : State) (v : Word) {p : Port} (h : p ≠ s.port) : (s.setRes v).res p = s.res p := by
  unfold State.setRes
  cases hp : s.port <;> cases p <;> simp_all [State.res]

/-! ## The fields of the state under an update of a unit below a channel -/

@[simp] theorem State.setChan_sys (s : State) (sd : Side) (c : Channel) : (s.setChan sd c).sys = s.sys := by
  cases sd <;> rfl
@[simp] theorem State.setChan_resA (s : State) (sd : Side) (c : Channel) : (s.setChan sd c).resA = s.resA := by
  cases sd <;> rfl
@[simp] theorem State.setChan_resC (s : State) (sd : Side) (c : Channel) : (s.setChan sd c).resC = s.resC := by
  cases sd <;> rfl
@[simp] theorem State.setChan_eng (s : State) (sd : Side) (c : Channel) : (s.setChan sd c).eng = s.eng := by
  cases sd <;> rfl
@[simp] theorem State.setChan_rng (s : State) (sd : Side) (c : Channel) : (s.setChan sd c).rng = s.rng := by
  cases sd <;> rfl
@[simp] theorem State.setChan_rbuf (s : State) (sd : Side) (c : Channel) : (s.setChan sd c).rbuf = s.rbuf := by
  cases sd <;> rfl
@[simp] theorem State.setChan_io (s : State) (sd : Side) (c : Channel) : (s.setChan sd c).io = s.io := by
  cases sd <;> rfl
@[simp] theorem State.setChan_port (s : State) (sd : Side) (c : Channel) : (s.setChan sd c).port = s.port := by
  cases sd <;> rfl
@[simp] theorem State.setChan_word (s : State) (sd : Side) (c : Channel) : (s.setChan sd c).word = s.word := by
  cases sd <;> rfl
@[simp] theorem State.setChan_queue (s : State) (sd : Side) (c : Channel) : (s.setChan sd c).queue = s.queue := by
  cases sd <;> rfl

@[simp] theorem State.setLine_sys (s : State) (sd : Side) (j : Fin 12) (l : DelayLine) : (s.setLine sd j l).sys = s.sys := by
  simp [State.setLine]
@[simp] theorem State.setLine_resA (s : State) (sd : Side) (j : Fin 12) (l : DelayLine) : (s.setLine sd j l).resA = s.resA := by
  simp [State.setLine]
@[simp] theorem State.setLine_resC (s : State) (sd : Side) (j : Fin 12) (l : DelayLine) : (s.setLine sd j l).resC = s.resC := by
  simp [State.setLine]
@[simp] theorem State.setLine_eng (s : State) (sd : Side) (j : Fin 12) (l : DelayLine) : (s.setLine sd j l).eng = s.eng := by
  simp [State.setLine]
@[simp] theorem State.setLine_rng (s : State) (sd : Side) (j : Fin 12) (l : DelayLine) : (s.setLine sd j l).rng = s.rng := by
  simp [State.setLine]
@[simp] theorem State.setLine_rbuf (s : State) (sd : Side) (j : Fin 12) (l : DelayLine) : (s.setLine sd j l).rbuf = s.rbuf := by
  simp [State.setLine]
@[simp] theorem State.setLine_io (s : State) (sd : Side) (j : Fin 12) (l : DelayLine) : (s.setLine sd j l).io = s.io := by
  simp [State.setLine]
@[simp] theorem State.setLine_port (s : State) (sd : Side) (j : Fin 12) (l : DelayLine) : (s.setLine sd j l).port = s.port := by
  simp [State.setLine]
@[simp] theorem State.setLine_word (s : State) (sd : Side) (j : Fin 12) (l : DelayLine) : (s.setLine sd j l).word = s.word := by
  simp [State.setLine]
@[simp] theorem State.setLine_queue (s : State) (sd : Side) (j : Fin 12) (l : DelayLine) : (s.setLine sd j l).queue = s.queue := by
  simp [State.setLine]

@[simp] theorem State.setLp1_sys (s : State) (r : Lp1Ref) (f : OnePole) : (s.setLp1 r f).sys = s.sys := by
  cases r <;> simp [State.setLp1]
@[simp] theorem State.setLp1_resA (s : State) (r : Lp1Ref) (f : OnePole) : (s.setLp1 r f).resA = s.resA := by
  cases r <;> simp [State.setLp1]
@[simp] theorem State.setLp1_resC (s : State) (r : Lp1Ref) (f : OnePole) : (s.setLp1 r f).resC = s.resC := by
  cases r <;> simp [State.setLp1]
@[simp] theorem State.setLp1_eng (s : State) (r : Lp1Ref) (f : OnePole) : (s.setLp1 r f).eng = s.eng := by
  cases r <;> simp [State.setLp1]
@[simp] theorem State.setLp1_rng (s : State) (r : Lp1Ref) (f : OnePole) : (s.setLp1 r f).rng = s.rng := by
  cases r <;> simp [State.setLp1]
@[simp] theorem State.setLp1_rbuf (s : State) (r : Lp1Ref) (f : OnePole) : (s.setLp1 r f).rbuf = s.rbuf := by
  cases r <;> simp [State.setLp1]
@[simp] theorem State.setLp1_io (s : State) (r : Lp1Ref) (f : OnePole) : (s.setLp1 r f).io = s.io := by
  cases r <;> simp [State.setLp1]
@[simp] theorem State.setLp1_port (s : State) (r : Lp1Ref) (f : OnePole) : (s.setLp1 r f).port = s.port := by
  cases r <;> simp [State.setLp1]
@[simp] theorem State.setLp1_word (s : State) (r : Lp1Ref) (f : OnePole) : (s.setLp1 r f).word = s.word := by
  cases r <;> simp [State.setLp1]
@[simp] theorem State.setLp1_queue (s : State) (r : Lp1Ref) (f : OnePole) : (s.setLp1 r f).queue = s.queue := by
  cases r <;> simp [State.setLp1]

@[simp] theorem State.setHp1_sys (s : State) (sd : Side) (f : OnePole) : (s.setHp1 sd f).sys = s.sys := by
  simp [State.setHp1]
@[simp] theorem State.setHp1_resA (s : State) (sd : Side) (f : OnePole) : (s.setHp1 sd f).resA = s.resA := by
  simp [State.setHp1]
@[simp] theorem State.setHp1_resC (s : State) (sd : Side) (f : OnePole) : (s.setHp1 sd f).resC = s.resC := by
  simp [State.setHp1]
@[simp] theorem State.setHp1_eng (s : State) (sd : Side) (f : OnePole) : (s.setHp1 sd f).eng = s.eng := by
  simp [State.setHp1]
@[simp] theorem State.setHp1_rng (s : State) (sd : Side) (f : OnePole) : (s.setHp1 sd f).rng = s.rng := by
  simp [State.setHp1]
@[simp] theorem State.setHp1_rbuf (s : State) (sd : Side) (f : OnePole) : (s.setHp1 sd f).rbuf = s.rbuf := by
  simp [State.setHp1]
@[simp] theorem State.setHp1_io (s : State) (sd : Side) (f : OnePole) : (s.setHp1 sd f).io = s.io := by
  simp [State.setHp1]
@[simp] theorem State.setHp1_port (s : State) (sd : Side) (f : OnePole) : (s.setHp1 sd f).port = s.port := by
  simp [State.setHp1]
@[simp] theorem State.setHp1_word (s : State) (sd : Side) (f : OnePole) : (s.setHp1 sd f).word = s.word := by
  simp [State.setHp1]
@[simp] theorem State.setHp1_queue (s : State) (sd : Side) (f : OnePole) : (s.setHp1 sd f).queue = s.queue := by
  simp [State.setHp1]

@[simp] theorem State.setShelf_sys (s : State) (r : ShelfRef) (f : Shelf) : (s.setShelf r f).sys = s.sys := by
  unfold State.setShelf; split <;> simp
@[simp] theorem State.setShelf_resA (s : State) (r : ShelfRef) (f : Shelf) : (s.setShelf r f).resA = s.resA := by
  unfold State.setShelf; split <;> simp
@[simp] theorem State.setShelf_resC (s : State) (r : ShelfRef) (f : Shelf) : (s.setShelf r f).resC = s.resC := by
  unfold State.setShelf; split <;> simp
@[simp] theorem State.setShelf_eng (s : State) (r : ShelfRef) (f : Shelf) : (s.setShelf r f).eng = s.eng := by
  unfold State.setShelf; split <;> simp
@[simp] theorem State.setShelf_rng (s : State) (r : ShelfRef) (f : Shelf) : (s.setShelf r f).rng = s.rng := by
  unfold State.setShelf; split <;> simp
@[simp] theorem State.setShelf_rbuf (s : State) (r : ShelfRef) (f : Shelf) : (s.setShelf r f).rbuf = s.rbuf := by
  unfold State.setShelf; split <;> simp
@[simp] theorem State.setShelf_io (s : State) (r : ShelfRef) (f : Shelf) : (s.setShelf r f).io = s.io := by
  unfold State.setShelf; split <;> simp
@[simp] theorem State.setShelf_port (s : State) (r : ShelfRef) (f : Shelf) : (s.setShelf r f).port = s.port := by
  unfold State.setShelf; split <;> simp
@[simp] theorem State.setShelf_word (s : State) (r : ShelfRef) (f : Shelf) : (s.setShelf r f).word = s.word := by
  unfold State.setShelf; split <;> simp
@[simp] theorem State.setShelf_queue (s : State) (r : ShelfRef) (f : Shelf) : (s.setShelf r f).queue = s.queue := by
  unfold State.setShelf; split <;> simp

@[simp] theorem State.setDiff_sys (s : State) (r : DiffRef) (d : Diffuser) : (s.setDiff r d).sys = s.sys := by
  cases r <;> simp [State.setDiff]
@[simp] theorem State.setDiff_resA (s : State) (r : DiffRef) (d : Diffuser) : (s.setDiff r d).resA = s.resA := by
  cases r <;> simp [State.setDiff]
@[simp] theorem State.setDiff_resC (s : State) (r : DiffRef) (d : Diffuser) : (s.setDiff r d).resC = s.resC := by
  cases r <;> simp [State.setDiff]
@[simp] theorem State.setDiff_eng (s : State) (r : DiffRef) (d : Diffuser) : (s.setDiff r d).eng = s.eng := by
  cases r <;> simp [State.setDiff]
@[simp] theorem State.setDiff_rng (s : State) (r : DiffRef) (d : Diffuser) : (s.setDiff r d).rng = s.rng := by
  cases r <;> simp [State.setDiff]
@[simp] theorem State.setDiff_rbuf (s : State) (r : DiffRef) (d : Diffuser) : (s.setDiff r d).rbuf = s.rbuf := by
  cases r <;> simp [State.setDiff]
@[simp] theorem State.setDiff_io (s : State) (r : DiffRef) (d : Diffuser) : (s.setDiff r d).io = s.io := by
  cases r <;> simp [State.setDiff]
@[simp] theorem State.setDiff_port (s : State) (r : DiffRef) (d : Diffuser) : (s.setDiff r d).port = s.port := by
  cases r <;> simp [State.setDiff]
@[simp] theorem State.setDiff_word (s : State) (r : DiffRef) (d : Diffuser) : (s.setDiff r d).word = s.word := by
  cases r <;> simp [State.setDiff]
@[simp] theorem State.setDiff_queue (s : State) (r : DiffRef) (d : Diffuser) : (s.setDiff r d).queue = s.queue := by
  cases r <;> simp [State.setDiff]

@[simp] theorem State.setMap_sys (s : State) (r : MapRef) (f : Allpass) : (s.setMap r f).sys = s.sys := by
  simp [State.setMap]
@[simp] theorem State.setMap_resA (s : State) (r : MapRef) (f : Allpass) : (s.setMap r f).resA = s.resA := by
  simp [State.setMap]
@[simp] theorem State.setMap_resC (s : State) (r : MapRef) (f : Allpass) : (s.setMap r f).resC = s.resC := by
  simp [State.setMap]
@[simp] theorem State.setMap_eng (s : State) (r : MapRef) (f : Allpass) : (s.setMap r f).eng = s.eng := by
  simp [State.setMap]
@[simp] theorem State.setMap_rng (s : State) (r : MapRef) (f : Allpass) : (s.setMap r f).rng = s.rng := by
  simp [State.setMap]
@[simp] theorem State.setMap_rbuf (s : State) (r : MapRef) (f : Allpass) : (s.setMap r f).rbuf = s.rbuf := by
  simp [State.setMap]
@[simp] theorem State.setMap_io (s : State) (r : MapRef) (f : Allpass) : (s.setMap r f).io = s.io := by
  simp [State.setMap]
@[simp] theorem State.setMap_port (s : State) (r : MapRef) (f : Allpass) : (s.setMap r f).port = s.port := by
  simp [State.setMap]
@[simp] theorem State.setMap_word (s : State) (r : MapRef) (f : Allpass) : (s.setMap r f).word = s.word := by
  simp [State.setMap]
@[simp] theorem State.setMap_queue (s : State) (r : MapRef) (f : Allpass) : (s.setMap r f).queue = s.queue := by
  simp [State.setMap]

@[simp] theorem State.setMdly_sys (s : State) (r : MdlyRef) (f : ModDelay) : (s.setMdly r f).sys = s.sys := by
  cases r <;> simp [State.setMdly]
@[simp] theorem State.setMdly_resA (s : State) (r : MdlyRef) (f : ModDelay) : (s.setMdly r f).resA = s.resA := by
  cases r <;> simp [State.setMdly]
@[simp] theorem State.setMdly_resC (s : State) (r : MdlyRef) (f : ModDelay) : (s.setMdly r f).resC = s.resC := by
  cases r <;> simp [State.setMdly]
@[simp] theorem State.setMdly_eng (s : State) (r : MdlyRef) (f : ModDelay) : (s.setMdly r f).eng = s.eng := by
  cases r <;> simp [State.setMdly]
@[simp] theorem State.setMdly_rng (s : State) (r : MdlyRef) (f : ModDelay) : (s.setMdly r f).rng = s.rng := by
  cases r <;> simp [State.setMdly]
@[simp] theorem State.setMdly_rbuf (s : State) (r : MdlyRef) (f : ModDelay) : (s.setMdly r f).rbuf = s.rbuf := by
  cases r <;> simp [State.setMdly]
@[simp] theorem State.setMdly_io (s : State) (r : MdlyRef) (f : ModDelay) : (s.setMdly r f).io = s.io := by
  cases r <;> simp [State.setMdly]
@[simp] theorem State.setMdly_port (s : State) (r : MdlyRef) (f : ModDelay) : (s.setMdly r f).port = s.port := by
  cases r <;> simp [State.setMdly]
@[simp] theorem State.setMdly_word (s : State) (r : MdlyRef) (f : ModDelay) : (s.setMdly r f).word = s.word := by
  cases r <;> simp [State.setMdly]
@[simp] theorem State.setMdly_queue (s : State) (r : MdlyRef) (f : ModDelay) : (s.setMdly r f).queue = s.queue := by
  cases r <;> simp [State.setMdly]

@[simp] theorem State.setMtap_sys (s : State) (sd : Side) (f : Multitap) : (s.setMtap sd f).sys = s.sys := by
  simp [State.setMtap]
@[simp] theorem State.setMtap_resA (s : State) (sd : Side) (f : Multitap) : (s.setMtap sd f).resA = s.resA := by
  simp [State.setMtap]
@[simp] theorem State.setMtap_resC (s : State) (sd : Side) (f : Multitap) : (s.setMtap sd f).resC = s.resC := by
  simp [State.setMtap]
@[simp] theorem State.setMtap_eng (s : State) (sd : Side) (f : Multitap) : (s.setMtap sd f).eng = s.eng := by
  simp [State.setMtap]
@[simp] theorem State.setMtap_rng (s : State) (sd : Side) (f : Multitap) : (s.setMtap sd f).rng = s.rng := by
  simp [State.setMtap]
@[simp] theorem State.setMtap_rbuf (s : State) (sd : Side) (f : Multitap) : (s.setMtap sd f).rbuf = s.rbuf := by
  simp [State.setMtap]
@[simp] theorem State.setMtap_io (s : State) (sd : Side) (f : Multitap) : (s.setMtap sd f).io = s.io := by
  simp [State.setMtap]
@[simp] theorem State.setMtap_port (s : State) (sd : Side) (f : Multitap) : (s.setMtap sd f).port = s.port := by
  simp [State.setMtap]
@[simp] theorem State.setMtap_word (s : State) (sd : Side) (f : Multitap) : (s.setMtap sd f).word = s.word := by
  simp [State.setMtap]
@[simp] theorem State.setMtap_queue (s : State) (sd : Side) (f : Multitap) : (s.setMtap sd f).queue = s.queue := by
  simp [State.setMtap]

@[simp] theorem State.chan_setRes (s : State) (v : Word) (sd : Side) : (s.setRes v).chan sd = s.chan sd := by
  cases sd <;> simp [State.chan]
@[simp] theorem State.line_setRes (s : State) (v : Word) (sd : Side) (j : Fin 12) : (s.setRes v).line sd j = s.line sd j := by
  simp [State.line]
@[simp] theorem State.lp1_setRes (s : State) (v : Word) (r0 : Lp1Ref) : (s.setRes v).lp1 r0 = s.lp1 r0 := by
  cases r0 <;> simp [State.lp1]
@[simp] theorem State.hp1_setRes (s : State) (v : Word) (sd : Side) : (s.setRes v).hp1 sd = s.hp1 sd := by
  simp [State.hp1]
@[simp] theorem State.shelf_setRes (s : State) (v : Word) (r0 : ShelfRef) : (s.setRes v).shelf r0 = s.shelf r0 := by
  unfold State.shelf; split <;> simp
@[simp] theorem State.diff_setRes (s : State) (v : Word) (r0 : DiffRef) : (s.setRes v).diff r0 = s.diff r0 := by
  cases r0 <;> simp [State.diff]
@[simp] theorem State.map_setRes (s : State) (v : Word) (r0 : MapRef) : (s.setRes v).map r0 = s.map r0 := by
  simp [State.map]
@[simp] theorem State.mdly_setRes (s : State) (v : Word) (r0 : MdlyRef) : (s.setRes v).mdly r0 = s.mdly r0 := by
  cases r0 <;> simp [State.mdly]
@[simp] theorem State.mtap_setRes (s : State) (v : Word) (sd : Side) : (s.setRes v).mtap sd = s.mtap sd := by
  simp [State.mtap]

@[simp] theorem State.chan_raise (s : State) (c : FaultCause) (sd : Side) : (s.raise c).chan sd = s.chan sd := by
  cases sd <;> simp [State.chan]
@[simp] theorem State.line_raise (s : State) (c : FaultCause) (sd : Side) (j : Fin 12) : (s.raise c).line sd j = s.line sd j := by
  simp [State.line]
@[simp] theorem State.lp1_raise (s : State) (c : FaultCause) (r0 : Lp1Ref) : (s.raise c).lp1 r0 = s.lp1 r0 := by
  cases r0 <;> simp [State.lp1]
@[simp] theorem State.hp1_raise (s : State) (c : FaultCause) (sd : Side) : (s.raise c).hp1 sd = s.hp1 sd := by
  simp [State.hp1]
@[simp] theorem State.shelf_raise (s : State) (c : FaultCause) (r0 : ShelfRef) : (s.raise c).shelf r0 = s.shelf r0 := by
  unfold State.shelf; split <;> simp
@[simp] theorem State.diff_raise (s : State) (c : FaultCause) (r0 : DiffRef) : (s.raise c).diff r0 = s.diff r0 := by
  cases r0 <;> simp [State.diff]
@[simp] theorem State.map_raise (s : State) (c : FaultCause) (r0 : MapRef) : (s.raise c).map r0 = s.map r0 := by
  simp [State.map]
@[simp] theorem State.mdly_raise (s : State) (c : FaultCause) (r0 : MdlyRef) : (s.raise c).mdly r0 = s.mdly r0 := by
  cases r0 <;> simp [State.mdly]
@[simp] theorem State.mtap_raise (s : State) (c : FaultCause) (sd : Side) : (s.raise c).mtap sd = s.mtap sd := by
  simp [State.mtap]

@[simp] theorem State.chan_setRng (s : State) (r : Rng) (sd : Side) : (s.setRng r).chan sd = s.chan sd := by
  cases sd <;> simp [State.chan]
@[simp] theorem State.line_setRng (s : State) (r : Rng) (sd : Side) (j : Fin 12) : (s.setRng r).line sd j = s.line sd j := by
  simp [State.line]
@[simp] theorem State.lp1_setRng (s : State) (r : Rng) (r0 : Lp1Ref) : (s.setRng r).lp1 r0 = s.lp1 r0 := by
  cases r0 <;> simp [State.lp1]
@[simp] theorem State.hp1_setRng (s : State) (r : Rng) (sd : Side) : (s.setRng r).hp1 sd = s.hp1 sd := by
  simp [State.hp1]
@[simp] theorem State.shelf_setRng (s : State) (r : Rng) (r0 : ShelfRef) : (s.setRng r).shelf r0 = s.shelf r0 := by
  unfold State.shelf; split <;> simp
@[simp] theorem State.diff_setRng (s : State) (r : Rng) (r0 : DiffRef) : (s.setRng r).diff r0 = s.diff r0 := by
  cases r0 <;> simp [State.diff]
@[simp] theorem State.map_setRng (s : State) (r : Rng) (r0 : MapRef) : (s.setRng r).map r0 = s.map r0 := by
  simp [State.map]
@[simp] theorem State.mdly_setRng (s : State) (r : Rng) (r0 : MdlyRef) : (s.setRng r).mdly r0 = s.mdly r0 := by
  cases r0 <;> simp [State.mdly]
@[simp] theorem State.mtap_setRng (s : State) (r : Rng) (sd : Side) : (s.setRng r).mtap sd = s.mtap sd := by
  simp [State.mtap]

@[simp] theorem State.chan_setRbuf (s : State) (b : Rbuf) (sd : Side) : (s.setRbuf b).chan sd = s.chan sd := by
  cases sd <;> simp [State.chan]
@[simp] theorem State.line_setRbuf (s : State) (b : Rbuf) (sd : Side) (j : Fin 12) : (s.setRbuf b).line sd j = s.line sd j := by
  simp [State.line]
@[simp] theorem State.lp1_setRbuf (s : State) (b : Rbuf) (r0 : Lp1Ref) : (s.setRbuf b).lp1 r0 = s.lp1 r0 := by
  cases r0 <;> simp [State.lp1]
@[simp] theorem State.hp1_setRbuf (s : State) (b : Rbuf) (sd : Side) : (s.setRbuf b).hp1 sd = s.hp1 sd := by
  simp [State.hp1]
@[simp] theorem State.shelf_setRbuf (s : State) (b : Rbuf) (r0 : ShelfRef) : (s.setRbuf b).shelf r0 = s.shelf r0 := by
  unfold State.shelf; split <;> simp
@[simp] theorem State.diff_setRbuf (s : State) (b : Rbuf) (r0 : DiffRef) : (s.setRbuf b).diff r0 = s.diff r0 := by
  cases r0 <;> simp [State.diff]
@[simp] theorem State.map_setRbuf (s : State) (b : Rbuf) (r0 : MapRef) : (s.setRbuf b).map r0 = s.map r0 := by
  simp [State.map]
@[simp] theorem State.mdly_setRbuf (s : State) (b : Rbuf) (r0 : MdlyRef) : (s.setRbuf b).mdly r0 = s.mdly r0 := by
  cases r0 <;> simp [State.mdly]
@[simp] theorem State.mtap_setRbuf (s : State) (b : Rbuf) (sd : Side) : (s.setRbuf b).mtap sd = s.mtap sd := by
  simp [State.mtap]

@[simp] theorem State.chan_setEng (s : State) (e : Engine) (sd : Side) : (s.setEng e).chan sd = s.chan sd := by
  cases sd <;> simp [State.chan]
@[simp] theorem State.line_setEng (s : State) (e : Engine) (sd : Side) (j : Fin 12) : (s.setEng e).line sd j = s.line sd j := by
  simp [State.line]
@[simp] theorem State.lp1_setEng (s : State) (e : Engine) (r0 : Lp1Ref) : (s.setEng e).lp1 r0 = s.lp1 r0 := by
  cases r0 <;> simp [State.lp1]
@[simp] theorem State.hp1_setEng (s : State) (e : Engine) (sd : Side) : (s.setEng e).hp1 sd = s.hp1 sd := by
  simp [State.hp1]
@[simp] theorem State.shelf_setEng (s : State) (e : Engine) (r0 : ShelfRef) : (s.setEng e).shelf r0 = s.shelf r0 := by
  unfold State.shelf; split <;> simp
@[simp] theorem State.diff_setEng (s : State) (e : Engine) (r0 : DiffRef) : (s.setEng e).diff r0 = s.diff r0 := by
  cases r0 <;> simp [State.diff]
@[simp] theorem State.map_setEng (s : State) (e : Engine) (r0 : MapRef) : (s.setEng e).map r0 = s.map r0 := by
  simp [State.map]
@[simp] theorem State.mdly_setEng (s : State) (e : Engine) (r0 : MdlyRef) : (s.setEng e).mdly r0 = s.mdly r0 := by
  cases r0 <;> simp [State.mdly]
@[simp] theorem State.mtap_setEng (s : State) (e : Engine) (sd : Side) : (s.setEng e).mtap sd = s.mtap sd := by
  simp [State.mtap]

@[simp] theorem State.chan_setIo (s : State) (b : Fin 4) (m : Mem) (sd : Side) : (s.setIo b m).chan sd = s.chan sd := by
  cases sd <;> simp [State.chan]
@[simp] theorem State.line_setIo (s : State) (b : Fin 4) (m : Mem) (sd : Side) (j : Fin 12) : (s.setIo b m).line sd j = s.line sd j := by
  simp [State.line]
@[simp] theorem State.lp1_setIo (s : State) (b : Fin 4) (m : Mem) (r0 : Lp1Ref) : (s.setIo b m).lp1 r0 = s.lp1 r0 := by
  cases r0 <;> simp [State.lp1]
@[simp] theorem State.hp1_setIo (s : State) (b : Fin 4) (m : Mem) (sd : Side) : (s.setIo b m).hp1 sd = s.hp1 sd := by
  simp [State.hp1]
@[simp] theorem State.shelf_setIo (s : State) (b : Fin 4) (m : Mem) (r0 : ShelfRef) : (s.setIo b m).shelf r0 = s.shelf r0 := by
  unfold State.shelf; split <;> simp
@[simp] theorem State.diff_setIo (s : State) (b : Fin 4) (m : Mem) (r0 : DiffRef) : (s.setIo b m).diff r0 = s.diff r0 := by
  cases r0 <;> simp [State.diff]
@[simp] theorem State.map_setIo (s : State) (b : Fin 4) (m : Mem) (r0 : MapRef) : (s.setIo b m).map r0 = s.map r0 := by
  simp [State.map]
@[simp] theorem State.mdly_setIo (s : State) (b : Fin 4) (m : Mem) (r0 : MdlyRef) : (s.setIo b m).mdly r0 = s.mdly r0 := by
  cases r0 <;> simp [State.mdly]
@[simp] theorem State.mtap_setIo (s : State) (b : Fin 4) (m : Mem) (sd : Side) : (s.setIo b m).mtap sd = s.mtap sd := by
  simp [State.mtap]

@[simp] theorem State.chan_putBlock (s : State) (b : Fin 4) (o : List F) (sd : Side) : (s.putBlock b o).chan sd = s.chan sd := by
  cases sd <;> simp [State.chan]
@[simp] theorem State.line_putBlock (s : State) (b : Fin 4) (o : List F) (sd : Side) (j : Fin 12) : (s.putBlock b o).line sd j = s.line sd j := by
  simp [State.line]
@[simp] theorem State.lp1_putBlock (s : State) (b : Fin 4) (o : List F) (r0 : Lp1Ref) : (s.putBlock b o).lp1 r0 = s.lp1 r0 := by
  cases r0 <;> simp [State.lp1]
@[simp] theorem State.hp1_putBlock (s : State) (b : Fin 4) (o : List F) (sd : Side) : (s.putBlock b o).hp1 sd = s.hp1 sd := by
  simp [State.hp1]
@[simp] theorem State.shelf_putBlock (s : State) (b : Fin 4) (o : List F) (r0 : ShelfRef) : (s.putBlock b o).shelf r0 = s.shelf r0 := by
  unfold State.shelf; split <;> simp
@[simp] theorem State.diff_putBlock (s : State) (b : Fin 4) (o : List F) (r0 : DiffRef) : (s.putBlock b o).diff r0 = s.diff r0 := by
  cases r0 <;> simp [State.diff]
@[simp] theorem State.map_putBlock (s : State) (b : Fin 4) (o : List F) (r0 : MapRef) : (s.putBlock b o).map r0 = s.map r0 := by
  simp [State.map]
@[simp] theorem State.mdly_putBlock (s : State) (b : Fin 4) (o : List F) (r0 : MdlyRef) : (s.putBlock b o).mdly r0 = s.mdly r0 := by
  cases r0 <;> simp [State.mdly]
@[simp] theorem State.mtap_putBlock (s : State) (b : Fin 4) (o : List F) (sd : Side) : (s.putBlock b o).mtap sd = s.mtap sd := by
  simp [State.mtap]

@[simp] theorem State.chan_clearFaults (s : State) (sd : Side) : (s.clearFaults).chan sd = s.chan sd := by
  cases sd <;> simp [State.chan]
@[simp] theorem State.line_clearFaults (s : State) (sd : Side) (j : Fin 12) : (s.clearFaults).line sd j = s.line sd j := by
  simp [State.line]
@[simp] theorem State.lp1_clearFaults (s : State) (r0 : Lp1Ref) : (s.clearFaults).lp1 r0 = s.lp1 r0 := by
  cases r0 <;> simp [State.lp1]
@[simp] theorem State.hp1_clearFaults (s : State) (sd : Side) : (s.clearFaults).hp1 sd = s.hp1 sd := by
  simp [State.hp1]
@[simp] theorem State.shelf_clearFaults (s : State) (r0 : ShelfRef) : (s.clearFaults).shelf r0 = s.shelf r0 := by
  unfold State.shelf; split <;> simp
@[simp] theorem State.diff_clearFaults (s : State) (r0 : DiffRef) : (s.clearFaults).diff r0 = s.diff r0 := by
  cases r0 <;> simp [State.diff]
@[simp] theorem State.map_clearFaults (s : State) (r0 : MapRef) : (s.clearFaults).map r0 = s.map r0 := by
  simp [State.map]
@[simp] theorem State.mdly_clearFaults (s : State) (r0 : MdlyRef) : (s.clearFaults).mdly r0 = s.mdly r0 := by
  cases r0 <;> simp [State.mdly]
@[simp] theorem State.mtap_clearFaults (s : State) (sd : Side) : (s.clearFaults).mtap sd = s.mtap sd := by
  simp [State.mtap]

@[simp] theorem State.chan_accept (s : State) (p : Port) (w : Command) (q : List Event) (sd : Side) : (s.accept p w q).chan sd = s.chan sd := by
  cases sd <;> simp [State.chan]
@[simp] theorem State.line_accept (s : State) (p : Port) (w : Command) (q : List Event) (sd : Side) (j : Fin 12) : (s.accept p w q).line sd j = s.line sd j := by
  simp [State.line]
@[simp] theorem State.lp1_accept (s : State) (p : Port) (w : Command) (q : List Event) (r0 : Lp1Ref) : (s.accept p w q).lp1 r0 = s.lp1 r0 := by
  cases r0 <;> simp [State.lp1]
@[simp] theorem State.hp1_accept (s : State) (p : Port) (w : Command) (q : List Event) (sd : Side) : (s.accept p w q).hp1 sd = s.hp1 sd := by
  simp [State.hp1]
@[simp] theorem State.shelf_accept (s : State) (p : Port) (w : Command) (q : List Event) (r0 : ShelfRef) : (s.accept p w q).shelf r0 = s.shelf r0 := by
  unfold State.shelf; split <;> simp
@[simp] theorem State.diff_accept (s : State) (p : Port) (w : Command) (q : List Event) (r0 : DiffRef) : (s.accept p w q).diff r0 = s.diff r0 := by
  cases r0 <;> simp [State.diff]
@[simp] theorem State.map_accept (s : State) (p : Port) (w : Command) (q : List Event) (r0 : MapRef) : (s.accept p w q).map r0 = s.map r0 := by
  simp [State.map]
@[simp] theorem State.mdly_accept (s : State) (p : Port) (w : Command) (q : List Event) (r0 : MdlyRef) : (s.accept p w q).mdly r0 = s.mdly r0 := by
  cases r0 <;> simp [State.mdly]
@[simp] theorem State.mtap_accept (s : State) (p : Port) (w : Command) (q : List Event) (sd : Side) : (s.accept p w q).mtap sd = s.mtap sd := by
  simp [State.mtap]

@[simp] theorem State.chan_issue (s : State) (p : Port) (w : Command) (sd : Side) : (s.issue p w).chan sd = s.chan sd := by
  cases sd <;> simp [State.chan]
@[simp] theorem State.line_issue (s : State) (p : Port) (w : Command) (sd : Side) (j : Fin 12) : (s.issue p w).line sd j = s.line sd j := by
  simp [State.line]
@[simp] theorem State.lp1_issue (s : State) (p : Port) (w : Command) (r0 : Lp1Ref) : (s.issue p w).lp1 r0 = s.lp1 r0 := by
  cases r0 <;> simp [State.lp1]
@[simp] theorem State.hp1_issue (s : State) (p : Port) (w : Command) (sd : Side) : (s.issue p w).hp1 sd = s.hp1 sd := by
  simp [State.hp1]
@[simp] theorem State.shelf_issue (s : State) (p : Port) (w : Command) (r0 : ShelfRef) : (s.issue p w).shelf r0 = s.shelf r0 := by
  unfold State.shelf; split <;> simp
@[simp] theorem State.diff_issue (s : State) (p : Port) (w : Command) (r0 : DiffRef) : (s.issue p w).diff r0 = s.diff r0 := by
  cases r0 <;> simp [State.diff]
@[simp] theorem State.map_issue (s : State) (p : Port) (w : Command) (r0 : MapRef) : (s.issue p w).map r0 = s.map r0 := by
  simp [State.map]
@[simp] theorem State.mdly_issue (s : State) (p : Port) (w : Command) (r0 : MdlyRef) : (s.issue p w).mdly r0 = s.mdly r0 := by
  cases r0 <;> simp [State.mdly]
@[simp] theorem State.mtap_issue (s : State) (p : Port) (w : Command) (sd : Side) : (s.issue p w).mtap sd = s.mtap sd := by
  simp [State.mtap]

/-! ## Getters after setters -/

theorem State.chan_setChan (s : State) (sd sd' : Side) (c : Channel) :
    (s.setChan sd c).chan sd' = if sd' = sd then c else s.chan sd' := by
  cases sd <;> cases sd' <;> rfl

@[simp] theorem State.chan_setChan_self (s : State) (sd : Side) (c : Channel) : (s.setChan sd c).chan sd = c := by
  cases sd <;> rfl

@[simp] theorem State.setChan_setChan (s : State) (sd : Side) (c c' : Channel) :
    (s.setChan sd c).setChan sd c' = s.setChan sd c' := by
  cases sd <;> rfl

@[simp] theorem Channel.setLine_line (c : Channel) (j : Fin 12) (l : DelayLine) :
    (c.setLine j l).line = c.line.set j l := rfl

@[simp] theorem Channel.setLine_inMix (c : Channel) (j : Fin 12) (l : DelayLine) : (c.setLine j l).inMix = c.inMix := rfl
@[simp] theorem Channel.setLine_flags (c : Channel) (j : Fin 12) (l : DelayLine) : (c.setLine j l).flags = c.flags := rfl
@[simp] theorem Channel.setLine_lines (c : Channel) (j : Fin 12) (l : DelayLine) : (c.setLine j l).lines = c.lines := rfl
@[simp] theorem Channel.setLine_decayT (c : Channel) (j : Fin 12) (l : DelayLine) : (c.setLine j l).decayT = c.decayT := rfl
@[simp] theorem Channel.setLine_dry (c : Channel) (j : Fin 12) (l : DelayLine) : (c.setLine j l).dry = c.dry := rfl
@[simp] theorem Channel.setLine_early (c : Channel) (j : Fin 12) (l : DelayLine) : (c.setLine j l).early = c.early := rfl
@[simp] theorem Channel.setLine_lineOut (c : Channel) (j : Fin 12) (l : DelayLine) : (c.setLine j l).lineOut = c.lineOut := rfl
@[simp] theorem Channel.setLine_xseed (c : Channel) (j : Fin 12) (l : DelayLine) : (c.setLine j l).xseed = c.xseed := rfl
@[simp] theorem Channel.setLine_hp (c : Channel) (j : Fin 12) (l : DelayLine) : (c.setLine j l).hp = c.hp := rfl
@[simp] theorem Channel.setLine_lp (c : Channel) (j : Fin 12) (l : DelayLine) : (c.setLine j l).lp = c.lp := rfl
@[simp] theorem Channel.setLine_pre (c : Channel) (j : Fin 12) (l : DelayLine) : (c.setLine j l).pre = c.pre := rfl
@[simp] theorem Channel.setLine_mt (c : Channel) (j : Fin 12) (l : DelayLine) : (c.setLine j l).mt = c.mt := rfl
@[simp] theorem Channel.setLine_ed (c : Channel) (j : Fin 12) (l : DelayLine) : (c.setLine j l).ed = c.ed := rfl

theorem vec_set_get {α : Type} {n : Nat} (v : Vector α n) (i j : Fin n) (x : α) :
    (v.set i x)[j] = if j = i then x else v[j] := by
  rw [Fin.getElem_fin, Fin.getElem_fin, Vector.getElem_set]
  by_cases h : j = i
  · simp [h]
  · have : i.val ≠ j.val := fun e => h (Fin.ext e.symm)
    simp [h, this]

theorem State.line_setLine (s : State) (sd sd' : Side) (j j' : Fin 12) (l : DelayLine) :
    (s.setLine sd j l).line sd' j' = if sd' = sd ∧ j' = j then l else s.line sd' j' := by
  unfold State.line State.setLine
  rw [State.chan_setChan]
  by_cases h : sd' = sd
  · subst h
    simp only [if_true, true_and, Channel.setLine_line, vec_set_get]
  · simp [h]

@[simp] theorem State.line_setLine_self (s : State) (sd : Side) (j : Fin 12) (l : DelayLine) :
    (s.setLine sd j l).line sd j = l := by
  simp [State.line_setLine]

theorem State.chan_setLine (s : State) (sd sd' : Side) (j : Fin 12) (l : DelayLine) :
    (s.setLine sd j l).chan sd' = if sd' = sd then (s.chan sd).setLine j l else s.chan sd' := by
  unfold State.setLine
  rw [State.chan_setChan]

@[simp] theorem State.lp1_setLp1 (s : State) (r : Lp1Ref) (f : OnePole) : (s.setLp1 r f).lp1 r = f := by
  cases r <;> simp [State.setLp1, State.lp1]

@[simp] theorem State.hp1_setHp1 (s : State) (sd : Side) (f : OnePole) : (s.setHp1 sd f).hp1 sd = f := by
  simp [State.setHp1, State.hp1]

@[simp] theorem State.shelf_setShelf (s : State) (r : ShelfRef) (f : Shelf) : (s.setShelf r f).shelf r = f := by
  obtain ⟨sd, j, k⟩ := r
  cases k <;> simp [State.setShelf, State.shelf]

@[simp] theorem State.diff_setDiff (s : State) (r : DiffRef) (d : Diffuser) : (s.setDiff r d).diff r = d := by
  cases r <;> simp [State.setDiff, State.diff]

@[simp] theorem Diffuser.setStage_stage (d : Diffuser) (k : Fin 12) (f : Allpass) :
    (d.setStage k f).stage = d.stage.set k f := rfl

@[simp] theorem State.map_setMap (s : State) (r : MapRef) (f : Allpass) : (s.setMap r f).map r = f := by
  simp [State.setMap, State.map]

@[simp] theorem State.mdly_setMdly (s : State) (r : MdlyRef) (f : ModDelay) : (s.setMdly r f).mdly r = f := by
  cases r <;> simp [State.setMdly, State.mdly]

@[simp] theorem State.mtap_setMtap (s : State) (sd : Side) (f : Multitap) : (s.setMtap sd f).mtap sd = f := by
  simp [State.setMtap, State.mtap]

/-! ## Other places are unchanged -/

theorem State.line_setLine_ne (s : State) {sd sd' : Side} {j j' : Fin 12} (h : ¬ sd' = sd ∨ ¬ j' = j) (l : DelayLine) :
    (s.setLine sd j l).line sd' j' = s.line sd' j' := by
  rw [State.line_setLine, if_neg]
  exact fun e => h.elim (fun h => h e.1) (fun h => h e.2)

/-- The registers of a channel are no registers of its lines. -/
@[simp] theorem chanReg_setLine (s : State) (sd sd' : Side) (j : Fin 12) (l : DelayLine) (n : Nat) :
    chanReg ((s.setLine sd j l).chan sd') n = chanReg (s.chan sd') n := by
  rw [State.chan_setLine]
  split
  · subst_vars; rfl
  · rfl

@[simp] theorem State.chan_setLine_inMix (s : State) (sd sd' : Side) (j : Fin 12) (l : DelayLine) :
    ((s.setLine sd j l).chan sd').inMix = (s.chan sd').inMix := by
  rw [State.chan_setLine]
  split
  · subst_vars; rfl
  · rfl

@[simp] theorem State.chan_setLine_flags (s : State) (sd sd' : Side) (j : Fin 12) (l : DelayLine) :
    ((s.setLine sd j l).chan sd').flags = (s.chan sd').flags := by
  rw [State.chan_setLine]
  split
  · subst_vars; rfl
  · rfl

@[simp] theorem State.chan_setLine_lines (s : State) (sd sd' : Side) (j : Fin 12) (l : DelayLine) :
    ((s.setLine sd j l).chan sd').lines = (s.chan sd').lines := by
  rw [State.chan_setLine]
  split
  · subst_vars; rfl
  · rfl

@[simp] theorem State.chan_setLine_decayT (s : State) (sd sd' : Side) (j : Fin 12) (l : DelayLine) :
    ((s.setLine sd j l).chan sd').decayT = (s.chan sd').decayT := by
  rw [State.chan_setLine]
  split
  · subst_vars; rfl
  · rfl

@[simp] theorem State.chan_setLine_dry (s : State) (sd sd' : Side) (j : Fin 12) (l : DelayLine) :
    ((s.setLine sd j l).chan sd').dry = (s.chan sd').dry := by
  rw [State.chan_setLine]
  split
  · subst_vars; rfl
  · rfl

@[simp] theorem State.chan_setLine_early (s : State) (sd sd' : Side) (j : Fin 12) (l : DelayLine) :
    ((s.setLine sd j l).chan sd').early = (s.chan sd').early := by
  rw [State.chan_setLine]
  split
  · subst_vars; rfl
  · rfl

@[simp] theorem State.chan_setLine_lineOut (s : State) (sd sd' : Side) (j : Fin 12) (l : DelayLine) :
    ((s.setLine sd j l).chan sd').lineOut = (s.chan sd').lineOut := by
  rw [State.chan_setLine]
  split
  · subst_vars; rfl
  · rfl

@[simp] theorem State.chan_setLine_xseed (s : State) (sd sd' : Side) (j : Fin 12) (l : DelayLine) :
    ((s.setLine sd j l).chan sd').xseed = (s.chan sd').xseed := by
  rw [State.chan_setLine]
  split
  · subst_vars; rfl
  · rfl

@[simp] theorem State.chan_setLine_hp (s : State) (sd sd' : Side) (j : Fin 12) (l : DelayLine) :
    ((s.setLine sd j l).chan sd').hp = (s.chan sd').hp := by
  rw [State.chan_setLine]
  split
  · subst_vars; rfl
  · rfl

@[simp] theorem State.chan_setLine_lp (s : State) (sd sd' : Side) (j : Fin 12) (l : DelayLine) :
    ((s.setLine sd j l).chan sd').lp = (s.chan sd').lp := by
  rw [State.chan_setLine]
  split
  · subst_vars; rfl
  · rfl

@[simp] theorem State.chan_setLine_pre (s : State) (sd sd' : Side) (j : Fin 12) (l : DelayLine) :
    ((s.setLine sd j l).chan sd').pre = (s.chan sd').pre := by
  rw [State.chan_setLine]
  split
  · subst_vars; rfl
  · rfl

@[simp] theorem State.chan_setLine_mt (s : State) (sd sd' : Side) (j : Fin 12) (l : DelayLine) :
    ((s.setLine sd j l).chan sd').mt = (s.chan sd').mt := by
  rw [State.chan_setLine]
  split
  · subst_vars; rfl
  · rfl

@[simp] theorem State.chan_setLine_ed (s : State) (sd sd' : Side) (j : Fin 12) (l : DelayLine) :
    ((s.setLine sd j l).chan sd').ed = (s.chan sd').ed := by
  rw [State.chan_setLine]
  split
  · subst_vars; rfl
  · rfl

theorem State.line_setChan (s : State) (sd sd' : Side) (c : Channel) (j : Fin 12) :
    (s.setChan sd c).line sd' j = if sd' = sd then c.line[j] else s.line sd' j := by
  unfold State.line
  rw [State.chan_setChan]
  split <;> rfl

/-- A line is unchanged by an update of the channel that keeps the lines. -/
@[simp] theorem State.line_setChan_same (s : State) (sd sd' : Side) (j : Fin 12) (c : Channel)
    (h : c.line = (s.chan sd).line) : (s.setChan sd c).line sd' j = s.line sd' j := by
  rw [State.line_setChan]
  split
  · subst_vars; rw [h]; rfl
  · rfl

end Sys2Proof.Machine
end

