-- ==== Sys2Proof/Laws/Frame.lean ====
section
/-! SUPPORT. What the debug reads show after each update of the state (spec/49_engine.md R385, R386): the registers and
memories of the unit written, and every other unit as before. -/

set_option linter.unusedSimpArgs false

namespace Sys2Proof.Machine

/-- An update of a channel shows only in the units of that channel. -/
theorem readReg_setChan (s : State) {sd : Side} (c : Channel) {r : UnitRef} (h : r.inChan sd = false) (n : Nat) :
    readReg (s.setChan sd c) r n = readReg s r n := by
  rcases r with _ | _ | _ | _ | _ | b | sd' | sd' | (sd' | ⟨sd', j'⟩) | ⟨sd', j', _ | _⟩ | ⟨(sd' | ⟨sd', j'⟩), k'⟩ |
    (sd' | ⟨sd', j'⟩) | (sd' | ⟨sd', j'⟩) | sd' | ⟨sd', j'⟩ <;>
  simp only [UnitRef.inChan, beq_eq_false_iff_ne, ne_eq] at h <;>
  simp [readReg, sysReg, State.lp1, State.hp1, State.shelf, State.map, State.diff, State.mdly, State.mtap,
    State.chan_setChan, State.line_setChan, h]

/-- An update of a channel shows only in the units of that channel (memories). -/
theorem readMem_setChan (s : State) {sd : Side} (c : Channel) {r : UnitRef} (h : r.inChan sd = false) (m i : Nat) :
    readMem (s.setChan sd c) r m i = readMem s r m i := by
  rcases r with _ | _ | _ | _ | _ | b | sd' | sd' | (sd' | ⟨sd', j'⟩) | ⟨sd', j', _ | _⟩ | ⟨(sd' | ⟨sd', j'⟩), k'⟩ |
    (sd' | ⟨sd', j'⟩) | (sd' | ⟨sd', j'⟩) | sd' | ⟨sd', j'⟩ <;>
  simp only [UnitRef.inChan, beq_eq_false_iff_ne, ne_eq] at h <;>
  simp [readMem, unitMem, State.map, State.diff, State.mdly, State.mtap,
    State.chan_setChan, State.line_setChan, h]

/-- An update of a line shows only in that line and its sub-units. -/
theorem readReg_setLine (s : State) {sd : Side} {j : Fin 12} (l : DelayLine) {r : UnitRef} (h : r.inLine sd j = false) (n : Nat) :
    readReg (s.setLine sd j l) r n = readReg s r n := by
  rcases r with _ | _ | _ | _ | _ | b | sd' | sd' | (sd' | ⟨sd', j'⟩) | ⟨sd', j', _ | _⟩ | ⟨(sd' | ⟨sd', j'⟩), k'⟩ |
    (sd' | ⟨sd', j'⟩) | (sd' | ⟨sd', j'⟩) | sd' | ⟨sd', j'⟩ <;>
  simp only [UnitRef.inLine, Bool.and_eq_false_iff, beq_eq_false_iff_ne, ne_eq] at h <;>
  simp [readReg, sysReg, State.lp1, State.hp1, State.shelf, State.map, State.diff, State.mdly, State.mtap,
    State.line_setLine_ne, h]

/-- An update of a line shows only in that line and its sub-units (memories). -/
theorem readMem_setLine (s : State) {sd : Side} {j : Fin 12} (l : DelayLine) {r : UnitRef} (h : r.inLine sd j = false) (m i : Nat) :
    readMem (s.setLine sd j l) r m i = readMem s r m i := by
  rcases r with _ | _ | _ | _ | _ | b | sd' | sd' | (sd' | ⟨sd', j'⟩) | ⟨sd', j', _ | _⟩ | ⟨(sd' | ⟨sd', j'⟩), k'⟩ |
    (sd' | ⟨sd', j'⟩) | (sd' | ⟨sd', j'⟩) | sd' | ⟨sd', j'⟩ <;>
  simp only [UnitRef.inLine, Bool.and_eq_false_iff, beq_eq_false_iff_ne, ne_eq] at h <;>
  simp [readMem, unitMem, State.map, State.diff, State.mdly, State.mtap,
    State.line_setLine_ne, h]

/-- An update of an LP1 instance shows only there. -/
theorem readReg_setLp1 (s : State) {p : Lp1Ref} (f : OnePole) {r : UnitRef} (h : r ≠ .lp1 p) (n : Nat) :
    readReg (s.setLp1 p f) r n = readReg s r n := by
  rcases p with sd | ⟨sd, j⟩ <;>
  rcases r with _ | _ | _ | _ | _ | b | sd' | sd' | (sd' | ⟨sd', j'⟩) | ⟨sd', j', _ | _⟩ | ⟨(sd' | ⟨sd', j'⟩), k'⟩ |
    (sd' | ⟨sd', j'⟩) | (sd' | ⟨sd', j'⟩) | sd' | ⟨sd', j'⟩ <;>
  (try by_cases e : sd' = sd) <;> (try subst e) <;> (try by_cases e' : j' = j) <;> (try subst e') <;>
  simp_all [readReg, sysReg, State.lp1, State.hp1, State.shelf, State.map, State.diff, State.mdly, State.mtap, chanReg, lineReg,
    State.setLp1, State.chan_setChan, State.line_setChan, State.line_setLine]

/-- An update of an LP1 instance shows only there (memories). -/
theorem readMem_setLp1 (s : State) {p : Lp1Ref} (f : OnePole) {r : UnitRef} (h : r ≠ .lp1 p) (m i : Nat) :
    readMem (s.setLp1 p f) r m i = readMem s r m i := by
  rcases p with sd | ⟨sd, j⟩ <;>
  rcases r with _ | _ | _ | _ | _ | b | sd' | sd' | (sd' | ⟨sd', j'⟩) | ⟨sd', j', _ | _⟩ | ⟨(sd' | ⟨sd', j'⟩), k'⟩ |
    (sd' | ⟨sd', j'⟩) | (sd' | ⟨sd', j'⟩) | sd' | ⟨sd', j'⟩ <;>
  (try by_cases e : sd' = sd) <;> (try subst e) <;> (try by_cases e' : j' = j) <;> (try subst e') <;>
  simp_all [readMem, unitMem, State.map, State.diff, State.mdly, State.mtap, chanReg, lineReg,
    State.setLp1, State.chan_setChan, State.line_setChan, State.line_setLine]

/-- An update of an HP1 instance shows only there. -/
theorem readReg_setHp1 (s : State) {sd : Side} (f : OnePole) {r : UnitRef} (h : r ≠ .hp1 sd) (n : Nat) :
    readReg (s.setHp1 sd f) r n = readReg s r n := by
  rcases r with _ | _ | _ | _ | _ | b | sd' | sd' | (sd' | ⟨sd', j'⟩) | ⟨sd', j', _ | _⟩ | ⟨(sd' | ⟨sd', j'⟩), k'⟩ |
    (sd' | ⟨sd', j'⟩) | (sd' | ⟨sd', j'⟩) | sd' | ⟨sd', j'⟩ <;>
  (try by_cases e : sd' = sd) <;> (try subst e) <;>
  simp_all [readReg, sysReg, State.lp1, State.hp1, State.shelf, State.map, State.diff, State.mdly, State.mtap, chanReg, lineReg,
    State.setHp1, State.chan_setChan, State.line_setChan, State.line_setLine]

/-- An update of an HP1 instance shows only there (memories). -/
theorem readMem_setHp1 (s : State) {sd : Side} (f : OnePole) {r : UnitRef} (h : r ≠ .hp1 sd) (m i : Nat) :
    readMem (s.setHp1 sd f) r m i = readMem s r m i := by
  rcases r with _ | _ | _ | _ | _ | b | sd' | sd' | (sd' | ⟨sd', j'⟩) | ⟨sd', j', _ | _⟩ | ⟨(sd' | ⟨sd', j'⟩), k'⟩ |
    (sd' | ⟨sd', j'⟩) | (sd' | ⟨sd', j'⟩) | sd' | ⟨sd', j'⟩ <;>
  (try by_cases e : sd' = sd) <;> (try subst e) <;>
  simp_all [readMem, unitMem, State.map, State.diff, State.mdly, State.mtap, chanReg, lineReg,
    State.setHp1, State.chan_setChan, State.line_setChan, State.line_setLine]

/-- An update of a shelf shows only there. -/
theorem readReg_setShelf (s : State) {p : ShelfRef} (f : Shelf) {r : UnitRef} (h : r ≠ .shelf p) (n : Nat) :
    readReg (s.setShelf p f) r n = readReg s r n := by
  obtain ⟨sd, j, _ | _⟩ := p <;>
  rcases r with _ | _ | _ | _ | _ | b | sd' | sd' | (sd' | ⟨sd', j'⟩) | ⟨sd', j', _ | _⟩ | ⟨(sd' | ⟨sd', j'⟩), k'⟩ |
    (sd' | ⟨sd', j'⟩) | (sd' | ⟨sd', j'⟩) | sd' | ⟨sd', j'⟩ <;>
  (try by_cases e : sd' = sd) <;> (try subst e) <;> (try by_cases e' : j' = j) <;> (try subst e') <;>
  simp_all [readReg, sysReg, State.lp1, State.hp1, State.shelf, State.map, State.diff, State.mdly, State.mtap, chanReg, lineReg,
    State.setShelf, State.chan_setChan, State.line_setChan, State.line_setLine]

/-- An update of a shelf shows only there (memories). -/
theorem readMem_setShelf (s : State) {p : ShelfRef} (f : Shelf) {r : UnitRef} (h : r ≠ .shelf p) (m i : Nat) :
    readMem (s.setShelf p f) r m i = readMem s r m i := by
  obtain ⟨sd, j, _ | _⟩ := p <;>
  rcases r with _ | _ | _ | _ | _ | b | sd' | sd' | (sd' | ⟨sd', j'⟩) | ⟨sd', j', _ | _⟩ | ⟨(sd' | ⟨sd', j'⟩), k'⟩ |
    (sd' | ⟨sd', j'⟩) | (sd' | ⟨sd', j'⟩) | sd' | ⟨sd', j'⟩ <;>
  (try by_cases e : sd' = sd) <;> (try subst e) <;> (try by_cases e' : j' = j) <;> (try subst e') <;>
  simp_all [readMem, unitMem, State.map, State.diff, State.mdly, State.mtap, chanReg, lineReg,
    State.setShelf, State.chan_setChan, State.line_setChan, State.line_setLine]

/-- An update of an MDLY instance shows only there. -/
theorem readReg_setMdly (s : State) {p : MdlyRef} (f : ModDelay) {r : UnitRef} (h : r ≠ .mdly p) (n : Nat) :
    readReg (s.setMdly p f) r n = readReg s r n := by
  rcases p with sd | ⟨sd, j⟩ <;>
  rcases r with _ | _ | _ | _ | _ | b | sd' | sd' | (sd' | ⟨sd', j'⟩) | ⟨sd', j', _ | _⟩ | ⟨(sd' | ⟨sd', j'⟩), k'⟩ |
    (sd' | ⟨sd', j'⟩) | (sd' | ⟨sd', j'⟩) | sd' | ⟨sd', j'⟩ <;>
  (try by_cases e : sd' = sd) <;> (try subst e) <;> (try by_cases e' : j' = j) <;> (try subst e') <;>
  simp_all [readReg, sysReg, State.lp1, State.hp1, State.shelf, State.map, State.diff, State.mdly, State.mtap, chanReg, lineReg,
    State.setMdly, State.chan_setChan, State.line_setChan, State.line_setLine]

/-- An update of an MDLY instance shows only there (memories). -/
theorem readMem_setMdly (s : State) {p : MdlyRef} (f : ModDelay) {r : UnitRef} (h : r ≠ .mdly p) (m i : Nat) :
    readMem (s.setMdly p f) r m i = readMem s r m i := by
  rcases p with sd | ⟨sd, j⟩ <;>
  rcases r with _ | _ | _ | _ | _ | b | sd' | sd' | (sd' | ⟨sd', j'⟩) | ⟨sd', j', _ | _⟩ | ⟨(sd' | ⟨sd', j'⟩), k'⟩ |
    (sd' | ⟨sd', j'⟩) | (sd' | ⟨sd', j'⟩) | sd' | ⟨sd', j'⟩ <;>
  (try by_cases e : sd' = sd) <;> (try subst e) <;> (try by_cases e' : j' = j) <;> (try subst e') <;>
  simp_all [readMem, unitMem, State.map, State.diff, State.mdly, State.mtap, chanReg, lineReg,
    State.setMdly, State.chan_setChan, State.line_setChan, State.line_setLine]

/-- An update of an MTAP instance shows only there. -/
theorem readReg_setMtap (s : State) {sd : Side} (f : Multitap) {r : UnitRef} (h : r ≠ .mtap sd) (n : Nat) :
    readReg (s.setMtap sd f) r n = readReg s r n := by
  rcases r with _ | _ | _ | _ | _ | b | sd' | sd' | (sd' | ⟨sd', j'⟩) | ⟨sd', j', _ | _⟩ | ⟨(sd' | ⟨sd', j'⟩), k'⟩ |
    (sd' | ⟨sd', j'⟩) | (sd' | ⟨sd', j'⟩) | sd' | ⟨sd', j'⟩ <;>
  (try by_cases e : sd' = sd) <;> (try subst e) <;>
  simp_all [readReg, sysReg, State.lp1, State.hp1, State.shelf, State.map, State.diff, State.mdly, State.mtap, chanReg, lineReg,
    State.setMtap, State.chan_setChan, State.line_setChan, State.line_setLine]

/-- An update of an MTAP instance shows only there (memories). -/
theorem readMem_setMtap (s : State) {sd : Side} (f : Multitap) {r : UnitRef} (h : r ≠ .mtap sd) (m i : Nat) :
    readMem (s.setMtap sd f) r m i = readMem s r m i := by
  rcases r with _ | _ | _ | _ | _ | b | sd' | sd' | (sd' | ⟨sd', j'⟩) | ⟨sd', j', _ | _⟩ | ⟨(sd' | ⟨sd', j'⟩), k'⟩ |
    (sd' | ⟨sd', j'⟩) | (sd' | ⟨sd', j'⟩) | sd' | ⟨sd', j'⟩ <;>
  (try by_cases e : sd' = sd) <;> (try subst e) <;>
  simp_all [readMem, unitMem, State.map, State.diff, State.mdly, State.mtap, chanReg, lineReg,
    State.setMtap, State.chan_setChan, State.line_setChan, State.line_setLine]

/-- An update of a DIFF instance shows only there and in its stages. -/
theorem readReg_setDiff (s : State) {p : DiffRef} (f : Diffuser) {r : UnitRef} (h : r ≠ .diff p) (hk : ∀ k, r ≠ .map ⟨p, k⟩) (n : Nat) :
    readReg (s.setDiff p f) r n = readReg s r n := by
  rcases p with sd | ⟨sd, j⟩ <;>
  rcases r with _ | _ | _ | _ | _ | b | sd' | sd' | (sd' | ⟨sd', j'⟩) | ⟨sd', j', _ | _⟩ | ⟨(sd' | ⟨sd', j'⟩), k'⟩ |
    (sd' | ⟨sd', j'⟩) | (sd' | ⟨sd', j'⟩) | sd' | ⟨sd', j'⟩ <;>
  (try by_cases e : sd' = sd) <;> (try subst e) <;> (try by_cases e' : j' = j) <;> (try subst e') <;>
  simp_all [readReg, sysReg, State.lp1, State.hp1, State.shelf, State.map, State.diff, State.mdly, State.mtap, chanReg, lineReg,
    State.setDiff, State.chan_setChan, State.line_setChan, State.line_setLine]

/-- An update of a DIFF instance shows only there and in its stages (memories). -/
theorem readMem_setDiff (s : State) {p : DiffRef} (f : Diffuser) {r : UnitRef} (h : r ≠ .diff p) (hk : ∀ k, r ≠ .map ⟨p, k⟩) (m i : Nat) :
    readMem (s.setDiff p f) r m i = readMem s r m i := by
  rcases p with sd | ⟨sd, j⟩ <;>
  rcases r with _ | _ | _ | _ | _ | b | sd' | sd' | (sd' | ⟨sd', j'⟩) | ⟨sd', j', _ | _⟩ | ⟨(sd' | ⟨sd', j'⟩), k'⟩ |
    (sd' | ⟨sd', j'⟩) | (sd' | ⟨sd', j'⟩) | sd' | ⟨sd', j'⟩ <;>
  (try by_cases e : sd' = sd) <;> (try subst e) <;> (try by_cases e' : j' = j) <;> (try subst e') <;>
  simp_all [readMem, unitMem, State.map, State.diff, State.mdly, State.mtap, chanReg, lineReg,
    State.setDiff, State.chan_setChan, State.line_setChan, State.line_setLine]

/-- An update of a stage shows only there. -/
theorem readReg_setMap (s : State) {p : MapRef} (f : Allpass) {r : UnitRef} (h : r ≠ .map p) (n : Nat) :
    readReg (s.setMap p f) r n = readReg s r n := by
  obtain ⟨sd | ⟨sd, j⟩, k⟩ := p <;>
  rcases r with _ | _ | _ | _ | _ | b | sd' | sd' | (sd' | ⟨sd', j'⟩) | ⟨sd', j', _ | _⟩ | ⟨(sd' | ⟨sd', j'⟩), k'⟩ |
    (sd' | ⟨sd', j'⟩) | (sd' | ⟨sd', j'⟩) | sd' | ⟨sd', j'⟩ <;>
  (try by_cases e : sd' = sd) <;> (try subst e) <;> (try by_cases e' : j' = j) <;> (try subst e') <;>
  (try by_cases e'' : k' = k) <;> (try subst e'') <;>
  simp_all [readReg, sysReg, State.lp1, State.hp1, State.shelf, State.map, State.diff, State.mdly, State.mtap, chanReg, lineReg, diffReg, Diffuser.setStage, vec_set_get, -Fin.getElem_fin,
    State.setMap, State.setDiff, State.chan_setChan, State.line_setChan, State.line_setLine]

/-- An update of a stage shows only there (memories). -/
theorem readMem_setMap (s : State) {p : MapRef} (f : Allpass) {r : UnitRef} (h : r ≠ .map p) (m i : Nat) :
    readMem (s.setMap p f) r m i = readMem s r m i := by
  obtain ⟨sd | ⟨sd, j⟩, k⟩ := p <;>
  rcases r with _ | _ | _ | _ | _ | b | sd' | sd' | (sd' | ⟨sd', j'⟩) | ⟨sd', j', _ | _⟩ | ⟨(sd' | ⟨sd', j'⟩), k'⟩ |
    (sd' | ⟨sd', j'⟩) | (sd' | ⟨sd', j'⟩) | sd' | ⟨sd', j'⟩ <;>
  (try by_cases e : sd' = sd) <;> (try subst e) <;> (try by_cases e' : j' = j) <;> (try subst e') <;>
  (try by_cases e'' : k' = k) <;> (try subst e'') <;>
  simp_all [readMem, unitMem, State.map, State.diff, State.mdly, State.mtap, chanReg, lineReg, diffReg, Diffuser.setStage, vec_set_get, -Fin.getElem_fin,
    State.setMap, State.setDiff, State.chan_setChan, State.line_setChan, State.line_setLine]

/-- An update of `RNG0` shows only there. -/
theorem readReg_setRng (s : State) (g : Rng) {r : UnitRef} (h : r ≠ .rng) (n : Nat) :
    readReg (s.setRng g) r n = readReg s r n := by
  cases r <;> simp_all [readReg, sysReg, State.lp1, State.hp1, State.shelf, State.map, State.diff, State.mdly, State.mtap]

/-- An update of `RNG0` shows only there (memories). -/
theorem readMem_setRng (s : State) (g : Rng) {r : UnitRef} (h : r ≠ .rng) (m i : Nat) :
    readMem (s.setRng g) r m i = readMem s r m i := by
  cases r <;> simp_all [readMem, unitMem, State.map, State.diff, State.mdly, State.mtap]

/-- An update of `RBUF0` shows only there. -/
theorem readReg_setRbuf (s : State) (g : Rbuf) {r : UnitRef} (h : r ≠ .rbuf) (n : Nat) :
    readReg (s.setRbuf g) r n = readReg s r n := by
  cases r <;> simp_all [readReg, sysReg, State.lp1, State.hp1, State.shelf, State.map, State.diff, State.mdly, State.mtap]

/-- An update of `RBUF0` shows only there (memories). -/
theorem readMem_setRbuf (s : State) (g : Rbuf) {r : UnitRef} (h : r ≠ .rbuf) (m i : Nat) :
    readMem (s.setRbuf g) r m i = readMem s r m i := by
  cases r <;> simp_all [readMem, unitMem, State.map, State.diff, State.mdly, State.mtap]

/-- An update of `ENG` shows only there. -/
theorem readReg_setEng (s : State) (e : Engine) {r : UnitRef} (h : r ≠ .eng) (n : Nat) :
    readReg (s.setEng e) r n = readReg s r n := by
  cases r <;> simp_all [readReg, sysReg, State.lp1, State.hp1, State.shelf, State.map, State.diff, State.mdly, State.mtap]

/-- An update of `ENG` shows only there (memories). -/
theorem readMem_setEng (s : State) (e : Engine) {r : UnitRef} (h : r ≠ .eng) (m i : Nat) :
    readMem (s.setEng e) r m i = readMem s r m i := by
  cases r <;> simp_all [readMem, unitMem, State.map, State.diff, State.mdly, State.mtap]

/-- An update of a bank of `IO` shows only there. -/
theorem readReg_setIo (s : State) {b : Fin 4} (g : Mem) {r : UnitRef} (n : Nat) :
    readReg (s.setIo b g) r n = readReg s r n := by
  cases r <;> simp [readReg, sysReg, State.lp1, State.hp1, State.shelf, State.map, State.diff, State.mdly, State.mtap]

/-- An update of a bank of `IO` shows only there (memories). -/
theorem readMem_setIo (s : State) {b : Fin 4} (g : Mem) {r : UnitRef} (h : r ≠ .io b) (m i : Nat) :
    readMem (s.setIo b g) r m i = readMem s r m i := by
  cases r with
  | io b' =>
    have e : b' ≠ b := fun e => h (by rw [e])
    simp [readMem, unitMem, vec_set_get, -Fin.getElem_fin, e]
  | _ => simp [readMem, unitMem, State.map, State.diff, State.mdly, State.mtap]

/-- A write of the result register shows only there. -/
theorem readReg_setRes (s : State) (v : Word) {r : UnitRef} {n : Nat} (h : ¬ resReg s r n) :
    readReg (s.setRes v) r n = readReg s r n := by
  cases r with
  | sys =>
    have hn : n ≠ resNumber s.port := fun e => h ⟨rfl, e⟩
    unfold State.setRes
    cases hp : s.port <;> rw [hp] at hn <;> simp only [readReg, sysReg] <;> (split <;> simp_all [resNumber])
  | _ => simp [readReg, sysReg, State.lp1, State.hp1, State.shelf, State.map, State.diff, State.mdly, State.mtap]

/-- A write of the result register shows only there (memories). -/
theorem readMem_setRes (s : State) (v : Word) {r : UnitRef} (m i : Nat) :
    readMem (s.setRes v) r m i = readMem s r m i := by
  cases r <;> simp [readMem, unitMem, State.map, State.diff, State.mdly, State.mtap]

/-- A fault shows only in `SYS`. -/
theorem readReg_raise (s : State) (c : FaultCause) {r : UnitRef} (h : r ≠ .sys) (n : Nat) :
    readReg (s.raise c) r n = readReg s r n := by
  cases r <;> simp_all [readReg, sysReg, State.lp1, State.hp1, State.shelf, State.map, State.diff, State.mdly, State.mtap]

/-- A fault shows only in `SYS` (memories). -/
theorem readMem_raise (s : State) (c : FaultCause) {r : UnitRef} (m i : Nat) :
    readMem (s.raise c) r m i = readMem s r m i := by
  cases r <;> simp_all [readMem, unitMem, State.map, State.diff, State.mdly, State.mtap]

/-- A clear of the fault registers shows only in `SYS`. -/
theorem readReg_clearFaults (s : State) {r : UnitRef} (h : r ≠ .sys) (n : Nat) :
    readReg (s.clearFaults) r n = readReg s r n := by
  cases r <;> simp_all [readReg, sysReg, State.lp1, State.hp1, State.shelf, State.map, State.diff, State.mdly, State.mtap]

/-- A clear of the fault registers shows only in `SYS` (memories). -/
theorem readMem_clearFaults (s : State) {r : UnitRef} (m i : Nat) :
    readMem (s.clearFaults) r m i = readMem s r m i := by
  cases r <;> simp_all [readMem, unitMem, State.map, State.diff, State.mdly, State.mtap]

/-- Taking a command from the queue shows in no register. -/
theorem readReg_accept (s : State) (p : Port) (w : Command) (q : List Event) {r : UnitRef} (n : Nat) :
    readReg (s.accept p w q) r n = readReg s r n := by
  cases r <;> simp_all [readReg, sysReg, State.lp1, State.hp1, State.shelf, State.map, State.diff, State.mdly, State.mtap]

/-- Taking a command from the queue shows in no register (memories). -/
theorem readMem_accept (s : State) (p : Port) (w : Command) (q : List Event) {r : UnitRef} (m i : Nat) :
    readMem (s.accept p w q) r m i = readMem s r m i := by
  cases r <;> simp_all [readMem, unitMem, State.map, State.diff, State.mdly, State.mtap]

/-- Issuing a command shows in no register. -/
theorem readReg_issue (s : State) (p : Port) (w : Command) {r : UnitRef} (n : Nat) :
    readReg (s.issue p w) r n = readReg s r n := by
  cases r <;> simp_all [readReg, sysReg, State.lp1, State.hp1, State.shelf, State.map, State.diff, State.mdly, State.mtap]

/-- Issuing a command shows in no register (memories). -/
theorem readMem_issue (s : State) (p : Port) (w : Command) {r : UnitRef} (m i : Nat) :
    readMem (s.issue p w) r m i = readMem s r m i := by
  cases r <;> simp_all [readMem, unitMem, State.map, State.diff, State.mdly, State.mtap]

/-! ## The unit written -/

@[simp] theorem readReg_setLp1_self (s : State) (p : Lp1Ref) (f : OnePole) (n : Nat) :
    readReg (s.setLp1 p f) (.lp1 p) n = onePoleReg f n := by simp [readReg]

@[simp] theorem readReg_setHp1_self (s : State) (sd : Side) (f : OnePole) (n : Nat) :
    readReg (s.setHp1 sd f) (.hp1 sd) n = onePoleReg f n := by simp [readReg]

@[simp] theorem readReg_setShelf_self (s : State) (p : ShelfRef) (f : Shelf) (n : Nat) :
    readReg (s.setShelf p f) (.shelf p) n = shelfReg p.kind f n := by simp [readReg]

@[simp] theorem readReg_setMap_self (s : State) (p : MapRef) (f : Allpass) (n : Nat) :
    readReg (s.setMap p f) (.map p) n = mapReg f n := by simp [readReg]

@[simp] theorem readReg_setDiff_self (s : State) (p : DiffRef) (d : Diffuser) (n : Nat) :
    readReg (s.setDiff p d) (.diff p) n = diffReg d n := by simp [readReg]

@[simp] theorem readReg_setMdly_self (s : State) (p : MdlyRef) (f : ModDelay) (n : Nat) :
    readReg (s.setMdly p f) (.mdly p) n = mdlyReg f n := by simp [readReg]

@[simp] theorem readReg_setMtap_self (s : State) (sd : Side) (f : Multitap) (n : Nat) :
    readReg (s.setMtap sd f) (.mtap sd) n = mtapReg f n := by simp [readReg]

@[simp] theorem readReg_setRes_self (s : State) (v : Word) : readReg (s.setRes v) .sys (resNumber s.port) = some v := by
  unfold State.setRes
  cases s.port <;> simp [readReg, sysReg, resNumber]

/-- Memory `m` of a unit as the debug read shows it. -/
def shownMem (x : Option (Mem × Nat)) (i : Nat) : Option Word :=
  match x with
  | some (mem, size) => if i < size then some (memRead mem i) else none
  | none => none

theorem readMem_eq (s : State) (r : UnitRef) (m i : Nat) : readMem s r m i = shownMem (unitMem s r m) i := rfl

@[simp] theorem unitMem_setMap_self (s : State) (p : MapRef) (f : Allpass) (m : Nat) :
    unitMem (s.setMap p f) (.map p) m = onlyMem 0 m f.core.buf Config.apCap := by simp [unitMem]

@[simp] theorem unitMem_setDiff_self (s : State) (p : DiffRef) (d : Diffuser) (m : Nat) :
    unitMem (s.setDiff p d) (.diff p) m = onlyMem 1 m d.seedV Config.diffDraws := by simp [unitMem]

@[simp] theorem unitMem_setMdly_self (s : State) (p : MdlyRef) (f : ModDelay) (m : Nat) :
    unitMem (s.setMdly p f) (.mdly p) m = onlyMem 0 m f.buf Config.dlCap := by simp [unitMem]

@[simp] theorem unitMem_setMtap_self (s : State) (sd : Side) (f : Multitap) (m : Nat) :
    unitMem (s.setMtap sd f) (.mtap sd) m = mtapMem f m := by simp [unitMem]

@[simp] theorem unitMem_setIo_self (s : State) (b : Fin 4) (g : Mem) (m : Nat) :
    unitMem (s.setIo b g) (.io b) m = onlyMem 0 m g Config.block := by
  simp [unitMem]

end Sys2Proof.Machine
end

