-- ==== Sys2Proof/Laws/Ops.lean ====
section
/-! SUPPORT. For each shared operation of Machine/Ops.lean, once, everything it can do: the operand check, the port check,
and the selection of a unit of the command's class (spec/30_encoding.md R110 (3) to (5)). -/

namespace Sys2Proof.Machine

/-- `Fault(c)` is a next state. -/
@[simp] theorem fail_eq (c : FaultCause) (s : State) : fail c s = .next (s.raise c) := rfl

@[simp] theorem check_true (c : FaultCause) (s : State) (k : Out) : check true c s k = k := rfl

@[simp] theorem check_false (c : FaultCause) (s : State) (k : Out) : check false c s k = .next (s.raise c) := rfl

/-- A check that answers a next state passed, or failed with its fault. -/
theorem check_cases {ok : Bool} {c : FaultCause} {s t : State} {k : Out} (h : check ok c s k = .next t) :
    (ok = true ∧ k = .next t) ∨ (ok = false ∧ t = s.raise c) := by
  cases ok
  · exact .inr ⟨rfl, by simpa using h.symm⟩
  · exact .inl ⟨rfl, h⟩

theorem onPortA_A {s : State} (h : s.port = .A) (k : Out) : onPortA s k = k := by simp [onPortA, h]

theorem onPortA_C {s : State} (h : s.port = .C) (k : Out) : onPortA s k = .next (s.raise .illPort) := by
  simp [onPortA, h]

/-- A command of port `A` that answers a next state arrived there, or is refused with `ILLPORT`. -/
theorem onPortA_cases {s t : State} {k : Out} (h : onPortA s k = .next t) :
    (s.port = .A ∧ k = .next t) ∨ (s.port = .C ∧ t = s.raise .illPort) := by
  cases hp : s.port
  · exact .inl ⟨rfl, by rwa [onPortA_A hp] at h⟩
  · rw [onPortA_C hp] at h
    exact .inr ⟨rfl, by simpa using h.symm⟩

theorem onRng_eq {u : UnitAddr} {s : State} (hp : s.port = .A) (hu : unitOf u = some .rng) (k : Out) :
    onRng u s k = k := by
  simp [onRng, onPortA, hp, hu]

/-- A command through `onRng` that answers a next state runs on its unit, or is refused with `ILLPORT` or `ILLUNIT`. -/
theorem onRng_cases {u : UnitAddr} {s t : State} {k : Out} (h : onRng u s k = .next t) :
    (s.port = .A ∧ unitOf u = some .rng ∧ k = .next t) ∨ t = s.raise .illPort ∨ t = s.raise .illUnit := by
  rcases onPortA_cases h with ⟨hp, h⟩ | ⟨_, h⟩
  · split at h
    · exact .inl ⟨hp, ‹_›, h⟩
    · exact .inr (.inr (by simpa using h.symm))
  · exact .inr (.inl h)

theorem onRbuf_eq {u : UnitAddr} {s : State} (hp : s.port = .A) (hu : unitOf u = some .rbuf) (k : Out) :
    onRbuf u s k = k := by
  simp [onRbuf, onPortA, hp, hu]

/-- A command through `onRbuf` that answers a next state runs on its unit, or is refused with `ILLPORT` or `ILLUNIT`. -/
theorem onRbuf_cases {u : UnitAddr} {s t : State} {k : Out} (h : onRbuf u s k = .next t) :
    (s.port = .A ∧ unitOf u = some .rbuf ∧ k = .next t) ∨ t = s.raise .illPort ∨ t = s.raise .illUnit := by
  rcases onPortA_cases h with ⟨hp, h⟩ | ⟨_, h⟩
  · split at h
    · exact .inl ⟨hp, ‹_›, h⟩
    · exact .inr (.inr (by simpa using h.symm))
  · exact .inr (.inl h)

theorem onLp1_eq {u : UnitAddr} {s : State} {r : Lp1Ref} (hp : s.port = .A) (hu : unitOf u = some (.lp1 r)) (k : Lp1Ref → Out) :
    onLp1 u s k = k r := by
  simp [onLp1, onPortA, hp, hu]

/-- A command through `onLp1` that answers a next state runs on its unit, or is refused with `ILLPORT` or `ILLUNIT`. -/
theorem onLp1_cases {u : UnitAddr} {s t : State} {k : Lp1Ref → Out} (h : onLp1 u s k = .next t) :
    (s.port = .A ∧ ∃ r, unitOf u = some (.lp1 r) ∧ k r = .next t) ∨ t = s.raise .illPort ∨ t = s.raise .illUnit := by
  rcases onPortA_cases h with ⟨hp, h⟩ | ⟨_, h⟩
  · split at h
    · exact .inl ⟨hp, _, ‹_›, h⟩
    · exact .inr (.inr (by simpa using h.symm))
  · exact .inr (.inl h)

theorem onHp1_eq {u : UnitAddr} {s : State} {sd : Side} (hp : s.port = .A) (hu : unitOf u = some (.hp1 sd)) (k : Side → Out) :
    onHp1 u s k = k sd := by
  simp [onHp1, onPortA, hp, hu]

/-- A command through `onHp1` that answers a next state runs on its unit, or is refused with `ILLPORT` or `ILLUNIT`. -/
theorem onHp1_cases {u : UnitAddr} {s t : State} {k : Side → Out} (h : onHp1 u s k = .next t) :
    (s.port = .A ∧ ∃ sd, unitOf u = some (.hp1 sd) ∧ k sd = .next t) ∨ t = s.raise .illPort ∨ t = s.raise .illUnit := by
  rcases onPortA_cases h with ⟨hp, h⟩ | ⟨_, h⟩
  · split at h
    · exact .inl ⟨hp, _, ‹_›, h⟩
    · exact .inr (.inr (by simpa using h.symm))
  · exact .inr (.inl h)

theorem onShelf_eq {u : UnitAddr} {s : State} {r : ShelfRef} (hp : s.port = .A) (hu : unitOf u = some (.shelf r)) (k : ShelfRef → Out) :
    onShelf u s k = k r := by
  simp [onShelf, onPortA, hp, hu]

/-- A command through `onShelf` that answers a next state runs on its unit, or is refused with `ILLPORT` or `ILLUNIT`. -/
theorem onShelf_cases {u : UnitAddr} {s t : State} {k : ShelfRef → Out} (h : onShelf u s k = .next t) :
    (s.port = .A ∧ ∃ r, unitOf u = some (.shelf r) ∧ k r = .next t) ∨ t = s.raise .illPort ∨ t = s.raise .illUnit := by
  rcases onPortA_cases h with ⟨hp, h⟩ | ⟨_, h⟩
  · split at h
    · exact .inl ⟨hp, _, ‹_›, h⟩
    · exact .inr (.inr (by simpa using h.symm))
  · exact .inr (.inl h)

theorem onMap_eq {u : UnitAddr} {s : State} {r : MapRef} (hp : s.port = .A) (hu : unitOf u = some (.map r)) (k : MapRef → Out) :
    onMap u s k = k r := by
  simp [onMap, onPortA, hp, hu]

/-- A command through `onMap` that answers a next state runs on its unit, or is refused with `ILLPORT` or `ILLUNIT`. -/
theorem onMap_cases {u : UnitAddr} {s t : State} {k : MapRef → Out} (h : onMap u s k = .next t) :
    (s.port = .A ∧ ∃ r, unitOf u = some (.map r) ∧ k r = .next t) ∨ t = s.raise .illPort ∨ t = s.raise .illUnit := by
  rcases onPortA_cases h with ⟨hp, h⟩ | ⟨_, h⟩
  · split at h
    · exact .inl ⟨hp, _, ‹_›, h⟩
    · exact .inr (.inr (by simpa using h.symm))
  · exact .inr (.inl h)

theorem onDiff_eq {u : UnitAddr} {s : State} {r : DiffRef} (hp : s.port = .A) (hu : unitOf u = some (.diff r)) (k : DiffRef → Out) :
    onDiff u s k = k r := by
  simp [onDiff, onPortA, hp, hu]

/-- A command through `onDiff` that answers a next state runs on its unit, or is refused with `ILLPORT` or `ILLUNIT`. -/
theorem onDiff_cases {u : UnitAddr} {s t : State} {k : DiffRef → Out} (h : onDiff u s k = .next t) :
    (s.port = .A ∧ ∃ r, unitOf u = some (.diff r) ∧ k r = .next t) ∨ t = s.raise .illPort ∨ t = s.raise .illUnit := by
  rcases onPortA_cases h with ⟨hp, h⟩ | ⟨_, h⟩
  · split at h
    · exact .inl ⟨hp, _, ‹_›, h⟩
    · exact .inr (.inr (by simpa using h.symm))
  · exact .inr (.inl h)

theorem onMdly_eq {u : UnitAddr} {s : State} {r : MdlyRef} (hp : s.port = .A) (hu : unitOf u = some (.mdly r)) (k : MdlyRef → Out) :
    onMdly u s k = k r := by
  simp [onMdly, onPortA, hp, hu]

/-- A command through `onMdly` that answers a next state runs on its unit, or is refused with `ILLPORT` or `ILLUNIT`. -/
theorem onMdly_cases {u : UnitAddr} {s t : State} {k : MdlyRef → Out} (h : onMdly u s k = .next t) :
    (s.port = .A ∧ ∃ r, unitOf u = some (.mdly r) ∧ k r = .next t) ∨ t = s.raise .illPort ∨ t = s.raise .illUnit := by
  rcases onPortA_cases h with ⟨hp, h⟩ | ⟨_, h⟩
  · split at h
    · exact .inl ⟨hp, _, ‹_›, h⟩
    · exact .inr (.inr (by simpa using h.symm))
  · exact .inr (.inl h)

theorem onMtap_eq {u : UnitAddr} {s : State} {sd : Side} (hp : s.port = .A) (hu : unitOf u = some (.mtap sd)) (k : Side → Out) :
    onMtap u s k = k sd := by
  simp [onMtap, onPortA, hp, hu]

/-- A command through `onMtap` that answers a next state runs on its unit, or is refused with `ILLPORT` or `ILLUNIT`. -/
theorem onMtap_cases {u : UnitAddr} {s t : State} {k : Side → Out} (h : onMtap u s k = .next t) :
    (s.port = .A ∧ ∃ sd, unitOf u = some (.mtap sd) ∧ k sd = .next t) ∨ t = s.raise .illPort ∨ t = s.raise .illUnit := by
  rcases onPortA_cases h with ⟨hp, h⟩ | ⟨_, h⟩
  · split at h
    · exact .inl ⟨hp, _, ‹_›, h⟩
    · exact .inr (.inr (by simpa using h.symm))
  · exact .inr (.inl h)

theorem onLine_eq {u : UnitAddr} {s : State} {sd : Side} {j : Fin 12} (hp : s.port = .A) (hu : unitOf u = some (.dline sd j)) (k : Side → Fin 12 → Out) :
    onLine u s k = k sd j := by
  simp [onLine, onPortA, hp, hu]

/-- A command through `onLine` that answers a next state runs on its unit, or is refused with `ILLPORT` or `ILLUNIT`. -/
theorem onLine_cases {u : UnitAddr} {s t : State} {k : Side → Fin 12 → Out} (h : onLine u s k = .next t) :
    (s.port = .A ∧ ∃ sd j, unitOf u = some (.dline sd j) ∧ k sd j = .next t) ∨ t = s.raise .illPort ∨ t = s.raise .illUnit := by
  rcases onPortA_cases h with ⟨hp, h⟩ | ⟨_, h⟩
  · split at h
    · exact .inl ⟨hp, _, _, ‹_›, h⟩
    · exact .inr (.inr (by simpa using h.symm))
  · exact .inr (.inl h)

theorem onChan_eq {u : UnitAddr} {s : State} {sd : Side} (hp : s.port = .A) (hu : unitOf u = some (.chan sd)) (k : Side → Out) :
    onChan u s k = k sd := by
  simp [onChan, onPortA, hp, hu]

/-- A command through `onChan` that answers a next state runs on its unit, or is refused with `ILLPORT` or `ILLUNIT`. -/
theorem onChan_cases {u : UnitAddr} {s t : State} {k : Side → Out} (h : onChan u s k = .next t) :
    (s.port = .A ∧ ∃ sd, unitOf u = some (.chan sd) ∧ k sd = .next t) ∨ t = s.raise .illPort ∨ t = s.raise .illUnit := by
  rcases onPortA_cases h with ⟨hp, h⟩ | ⟨_, h⟩
  · split at h
    · exact .inl ⟨hp, _, ‹_›, h⟩
    · exact .inr (.inr (by simpa using h.symm))
  · exact .inr (.inl h)

theorem onIo_eq {u : UnitAddr} {s : State} {b : Fin 4} (hp : s.port = .A) (hu : unitOf u = some (.io b)) (k : Fin 4 → Out) :
    onIo u s k = k b := by
  simp [onIo, onPortA, hp, hu]

/-- A command through `onIo` that answers a next state runs on its unit, or is refused with `ILLPORT` or `ILLUNIT`. -/
theorem onIo_cases {u : UnitAddr} {s t : State} {k : Fin 4 → Out} (h : onIo u s k = .next t) :
    (s.port = .A ∧ ∃ b, unitOf u = some (.io b) ∧ k b = .next t) ∨ t = s.raise .illPort ∨ t = s.raise .illUnit := by
  rcases onPortA_cases h with ⟨hp, h⟩ | ⟨_, h⟩
  · split at h
    · exact .inl ⟨hp, _, ‹_›, h⟩
    · exact .inr (.inr (by simpa using h.symm))
  · exact .inr (.inl h)

theorem onFn_eq {u : UnitAddr} {s : State} (hp : s.port = .A) (hu : unitOf u = some .fn) (k : Out) :
    onFn u s k = k := by
  simp [onFn, onPortA, hp, hu]

/-- A command through `onFn` that answers a next state runs on its unit, or is refused with `ILLPORT` or `ILLUNIT`. -/
theorem onFn_cases {u : UnitAddr} {s t : State} {k : Out} (h : onFn u s k = .next t) :
    (s.port = .A ∧ unitOf u = some .fn ∧ k = .next t) ∨ t = s.raise .illPort ∨ t = s.raise .illUnit := by
  rcases onPortA_cases h with ⟨hp, h⟩ | ⟨_, h⟩
  · split at h
    · exact .inl ⟨hp, ‹_›, h⟩
    · exact .inr (.inr (by simpa using h.symm))
  · exact .inr (.inl h)

theorem onEngAny_eq {u : UnitAddr} {s : State} (hu : unitOf u = some .eng) (k : Out) : onEngAny u s k = k := by
  simp [onEngAny, hu]

/-- A command of either port on `ENG` that answers a next state runs on it, or is refused with `ILLUNIT`. -/
theorem onEngAny_cases {u : UnitAddr} {s t : State} {k : Out} (h : onEngAny u s k = .next t) :
    (unitOf u = some .eng ∧ k = .next t) ∨ t = s.raise .illUnit := by
  unfold onEngAny at h
  split at h
  · exact .inl ⟨‹_›, h⟩
  · exact .inr (by simpa using h.symm)

theorem onEng_eq {u : UnitAddr} {s : State} (hp : s.port = .A) (hu : unitOf u = some .eng) (k : Out) :
    onEng u s k = k := by
  simp [onEng, onPortA, onEngAny, hp, hu]

/-- A command of port `A` on `ENG` that answers a next state runs on it, or is refused with `ILLPORT` or `ILLUNIT`. -/
theorem onEng_cases {u : UnitAddr} {s t : State} {k : Out} (h : onEng u s k = .next t) :
    (s.port = .A ∧ unitOf u = some .eng ∧ k = .next t) ∨ t = s.raise .illPort ∨ t = s.raise .illUnit := by
  rcases onPortA_cases h with ⟨hp, h⟩ | ⟨_, h⟩
  · rcases onEngAny_cases h with ⟨hu, h⟩ | h
    · exact .inl ⟨hp, hu, h⟩
    · exact .inr (.inr h)
  · exact .inr (.inl h)

theorem onRegs_eq {u : UnitAddr} {s : State} {r : UnitRef} (hu : unitOf u = some r) (hr : hasRegs r = true)
    (k : UnitRef → Out) : onRegs u s k = k r := by
  simp [onRegs, hu, hr]

/-- `RDREG`'s selection of a unit. -/
theorem onRegs_cases {u : UnitAddr} {s t : State} {k : UnitRef → Out} (h : onRegs u s k = .next t) :
    (∃ r, unitOf u = some r ∧ hasRegs r = true ∧ k r = .next t) ∨ t = s.raise .illUnit := by
  unfold onRegs at h
  split at h
  · split at h
    · exact .inl ⟨_, ‹_›, ‹_›, h⟩
    · exact .inr (by simpa using h.symm)
  · exact .inr (by simpa using h.symm)

theorem onMems_eq {u : UnitAddr} {s : State} {r : UnitRef} (hp : s.port = .A) (hu : unitOf u = some r)
    (hr : hasMems r = true) (k : UnitRef → Out) : onMems u s k = k r := by
  simp [onMems, onPortA, hp, hu, hr]

/-- `RDMEM`'s selection of a unit. -/
theorem onMems_cases {u : UnitAddr} {s t : State} {k : UnitRef → Out} (h : onMems u s k = .next t) :
    (s.port = .A ∧ ∃ r, unitOf u = some r ∧ hasMems r = true ∧ k r = .next t) ∨ t = s.raise .illPort ∨
      t = s.raise .illUnit := by
  rcases onPortA_cases h with ⟨hp, h⟩ | ⟨_, h⟩
  · split at h
    · split at h
      · exact .inl ⟨hp, _, ‹_›, ‹_›, h⟩
      · exact .inr (.inr (by simpa using h.symm))
    · exact .inr (.inr (by simpa using h.symm))
  · exact .inr (.inl h)

@[simp] theorem putRead_some (s : State) (w : Word) : putRead s (some w) = .next (s.setRes w) := rfl

@[simp] theorem putRead_none (s : State) : putRead s none = .next (s.raise .idxErr) := rfl

/-- A debug read that answers a next state gave its word, or refused the number. -/
theorem putRead_cases {s t : State} {v : Option Word} (h : putRead s v = .next t) :
    (∃ w, v = some w ∧ t = s.setRes w) ∨ (v = none ∧ t = s.raise .idxErr) := by
  cases v
  · exact .inr ⟨rfl, by simpa using h.symm⟩
  · exact .inl ⟨_, rfl, by simpa using h.symm⟩

end Sys2Proof.Machine
end

