-- ==== Sys2Proof/Laws/PerInstr.lean ====
section
/-! SUPPORT. Statements made for every command, one lemma for each constructor of `Instr`. -/

namespace Sys2Proof

namespace Laws.Coded

/-- The word of a command has the opcode of R106 in bits 63:56. -/
def Statement (i : Instr) : Prop := opcodeField (encode i) = i.opcode

theorem nop : Statement (.nop) := opcodeField_packCommand _ _ _ _
theorem reset : Statement (.reset) := opcodeField_packCommand _ _ _ _
theorem rdreg (u : UnitAddr) (sub : SubField) : Statement (.rdreg u sub) := opcodeField_packCommand _ _ _ _
theorem rdmem (u : UnitAddr) (sub : SubField) (imm : Word) : Statement (.rdmem u sub imm) := opcodeField_packCommand _ _ _ _
theorem clrf : Statement (.clrf) := opcodeField_packCommand _ _ _ _
theorem ioWr (u : UnitAddr) (sub : SubField) (imm : Word) : Statement (.ioWr u sub imm) := opcodeField_packCommand _ _ _ _
theorem ioRd (u : UnitAddr) (sub : SubField) : Statement (.ioRd u sub) := opcodeField_packCommand _ _ _ _
theorem rngSeed (u : UnitAddr) (imm : Word) : Statement (.rngSeed u imm) := opcodeField_packCommand _ _ _ _
theorem rngNext (u : UnitAddr) : Statement (.rngNext u) := opcodeField_packCommand _ _ _ _
theorem rbSetSeed (u : UnitAddr) (imm : Word) : Statement (.rbSetSeed u imm) := opcodeField_packCommand _ _ _ _
theorem rbSetX (u : UnitAddr) (imm : Word) : Statement (.rbSetX u imm) := opcodeField_packCommand _ _ _ _
theorem rbGen (u : UnitAddr) (imm : Word) : Statement (.rbGen u imm) := opcodeField_packCommand _ _ _ _
theorem rbGenX (u : UnitAddr) (imm : Word) : Statement (.rbGenX u imm) := opcodeField_packCommand _ _ _ _
theorem lpSetFc (u : UnitAddr) (imm : Word) : Statement (.lpSetFc u imm) := opcodeField_packCommand _ _ _ _
theorem lpStep (u : UnitAddr) (imm : Word) : Statement (.lpStep u imm) := opcodeField_packCommand _ _ _ _
theorem lpClr (u : UnitAddr) : Statement (.lpClr u) := opcodeField_packCommand _ _ _ _
theorem hpSetFc (u : UnitAddr) (imm : Word) : Statement (.hpSetFc u imm) := opcodeField_packCommand _ _ _ _
theorem hpStep (u : UnitAddr) (imm : Word) : Statement (.hpStep u imm) := opcodeField_packCommand _ _ _ _
theorem hpClr (u : UnitAddr) : Statement (.hpClr u) := opcodeField_packCommand _ _ _ _
theorem shSetF (u : UnitAddr) (imm : Word) : Statement (.shSetF u imm) := opcodeField_packCommand _ _ _ _
theorem shSetG (u : UnitAddr) (imm : Word) : Statement (.shSetG u imm) := opcodeField_packCommand _ _ _ _
theorem shStep (u : UnitAddr) (imm : Word) : Statement (.shStep u imm) := opcodeField_packCommand _ _ _ _
theorem shClr (u : UnitAddr) : Statement (.shClr u) := opcodeField_packCommand _ _ _ _
theorem apSetDly (u : UnitAddr) (imm : Word) : Statement (.apSetDly u imm) := opcodeField_packCommand _ _ _ _
theorem apSetFb (u : UnitAddr) (imm : Word) : Statement (.apSetFb u imm) := opcodeField_packCommand _ _ _ _
theorem apSetModA (u : UnitAddr) (imm : Word) : Statement (.apSetModA u imm) := opcodeField_packCommand _ _ _ _
theorem apSetModR (u : UnitAddr) (imm : Word) : Statement (.apSetModR u imm) := opcodeField_packCommand _ _ _ _
theorem apSetInterp (u : UnitAddr) (imm : Word) : Statement (.apSetInterp u imm) := opcodeField_packCommand _ _ _ _
theorem apSetModEn (u : UnitAddr) (imm : Word) : Statement (.apSetModEn u imm) := opcodeField_packCommand _ _ _ _
theorem apStep (u : UnitAddr) (imm : Word) : Statement (.apStep u imm) := opcodeField_packCommand _ _ _ _
theorem apClr (u : UnitAddr) : Statement (.apClr u) := opcodeField_packCommand _ _ _ _
theorem dfSetStages (u : UnitAddr) (imm : Word) : Statement (.dfSetStages u imm) := opcodeField_packCommand _ _ _ _
theorem dfSetDly (u : UnitAddr) (imm : Word) : Statement (.dfSetDly u imm) := opcodeField_packCommand _ _ _ _
theorem dfSetFb (u : UnitAddr) (imm : Word) : Statement (.dfSetFb u imm) := opcodeField_packCommand _ _ _ _
theorem dfSetModA (u : UnitAddr) (imm : Word) : Statement (.dfSetModA u imm) := opcodeField_packCommand _ _ _ _
theorem dfSetModR (u : UnitAddr) (imm : Word) : Statement (.dfSetModR u imm) := opcodeField_packCommand _ _ _ _
theorem dfSetSeed (u : UnitAddr) (imm : Word) : Statement (.dfSetSeed u imm) := opcodeField_packCommand _ _ _ _
theorem dfSetX (u : UnitAddr) (imm : Word) : Statement (.dfSetX u imm) := opcodeField_packCommand _ _ _ _
theorem dfSetInterp (u : UnitAddr) (imm : Word) : Statement (.dfSetInterp u imm) := opcodeField_packCommand _ _ _ _
theorem dfSetModEn (u : UnitAddr) (imm : Word) : Statement (.dfSetModEn u imm) := opcodeField_packCommand _ _ _ _
theorem dfStep (u : UnitAddr) (imm : Word) : Statement (.dfStep u imm) := opcodeField_packCommand _ _ _ _
theorem dfClr (u : UnitAddr) : Statement (.dfClr u) := opcodeField_packCommand _ _ _ _
theorem mdSetDly (u : UnitAddr) (imm : Word) : Statement (.mdSetDly u imm) := opcodeField_packCommand _ _ _ _
theorem mdSetModA (u : UnitAddr) (imm : Word) : Statement (.mdSetModA u imm) := opcodeField_packCommand _ _ _ _
theorem mdSetModR (u : UnitAddr) (imm : Word) : Statement (.mdSetModR u imm) := opcodeField_packCommand _ _ _ _
theorem mdStep (u : UnitAddr) (imm : Word) : Statement (.mdStep u imm) := opcodeField_packCommand _ _ _ _
theorem mdClr (u : UnitAddr) : Statement (.mdClr u) := opcodeField_packCommand _ _ _ _
theorem mtSetTaps (u : UnitAddr) (imm : Word) : Statement (.mtSetTaps u imm) := opcodeField_packCommand _ _ _ _
theorem mtSetLen (u : UnitAddr) (imm : Word) : Statement (.mtSetLen u imm) := opcodeField_packCommand _ _ _ _
theorem mtSetDecay (u : UnitAddr) (imm : Word) : Statement (.mtSetDecay u imm) := opcodeField_packCommand _ _ _ _
theorem mtSetSeed (u : UnitAddr) (imm : Word) : Statement (.mtSetSeed u imm) := opcodeField_packCommand _ _ _ _
theorem mtSetX (u : UnitAddr) (imm : Word) : Statement (.mtSetX u imm) := opcodeField_packCommand _ _ _ _
theorem mtStep (u : UnitAddr) (imm : Word) : Statement (.mtStep u imm) := opcodeField_packCommand _ _ _ _
theorem mtClr (u : UnitAddr) : Statement (.mtClr u) := opcodeField_packCommand _ _ _ _
theorem dlSetFb (u : UnitAddr) (imm : Word) : Statement (.dlSetFb u imm) := opcodeField_packCommand _ _ _ _
theorem dlSetFlags (u : UnitAddr) (imm : Word) : Statement (.dlSetFlags u imm) := opcodeField_packCommand _ _ _ _
theorem dlProc (u : UnitAddr) (imm : Word) : Statement (.dlProc u imm) := opcodeField_packCommand _ _ _ _
theorem dlClr (u : UnitAddr) : Statement (.dlClr u) := opcodeField_packCommand _ _ _ _
theorem chSetInMix (u : UnitAddr) (imm : Word) : Statement (.chSetInMix u imm) := opcodeField_packCommand _ _ _ _
theorem chSetFlags (u : UnitAddr) (imm : Word) : Statement (.chSetFlags u imm) := opcodeField_packCommand _ _ _ _
theorem chSetLines (u : UnitAddr) (imm : Word) : Statement (.chSetLines u imm) := opcodeField_packCommand _ _ _ _
theorem chSetDecay (u : UnitAddr) (imm : Word) : Statement (.chSetDecay u imm) := opcodeField_packCommand _ _ _ _
theorem chSetDry (u : UnitAddr) (imm : Word) : Statement (.chSetDry u imm) := opcodeField_packCommand _ _ _ _
theorem chSetEarly (u : UnitAddr) (imm : Word) : Statement (.chSetEarly u imm) := opcodeField_packCommand _ _ _ _
theorem chSetLineOut (u : UnitAddr) (imm : Word) : Statement (.chSetLineOut u imm) := opcodeField_packCommand _ _ _ _
theorem chSetX (u : UnitAddr) (imm : Word) : Statement (.chSetX u imm) := opcodeField_packCommand _ _ _ _
theorem chProc (u : UnitAddr) (imm : Word) : Statement (.chProc u imm) := opcodeField_packCommand _ _ _ _
theorem chClr (u : UnitAddr) : Statement (.chClr u) := opcodeField_packCommand _ _ _ _
theorem enSetP (u : UnitAddr) (sub : SubField) (imm : Word) : Statement (.enSetP u sub imm) := opcodeField_packCommand _ _ _ _
theorem enGetP (u : UnitAddr) (sub : SubField) : Statement (.enGetP u sub) := opcodeField_packCommand _ _ _ _
theorem enProc (u : UnitAddr) (imm : Word) : Statement (.enProc u imm) := opcodeField_packCommand _ _ _ _
theorem enClr (u : UnitAddr) : Statement (.enClr u) := opcodeField_packCommand _ _ _ _
theorem enSync (u : UnitAddr) : Statement (.enSync u) := opcodeField_packCommand _ _ _ _
theorem fnR2d (u : UnitAddr) (imm : Word) : Statement (.fnR2d u imm) := opcodeField_packCommand _ _ _ _
theorem fnR3d (u : UnitAddr) (imm : Word) : Statement (.fnR3d u imm) := opcodeField_packCommand _ _ _ _
theorem fnR4o (u : UnitAddr) (imm : Word) : Statement (.fnR4o u imm) := opcodeField_packCommand _ _ _ _
theorem fnDb2Lin (u : UnitAddr) (imm : Word) : Statement (.fnDb2Lin u imm) := opcodeField_packCommand _ _ _ _

end Laws.Coded

end Sys2Proof
end

