-- ==== Sys2Proof/Laws/Untouched.lean ====
section
/-! SUPPORT. The frame of every update of a unit, once: it leaves untouched every other unit, every register of the unit
that shows the same value, and every word of its memories that reads the same. -/

namespace Sys2Proof.Machine

theorem Untouched.refl (s : State) (R : UnitRef → Nat → Prop) (M : UnitRef → Nat → Nat → Prop) : Untouched s s R M :=
  ⟨fun _ _ _ => rfl, fun _ _ _ _ => rfl, rfl, rfl, rfl⟩

/-- A frame holds with more registers and more words in it. -/
theorem Untouched.mono {s t : State} {R R' : UnitRef → Nat → Prop} {M M' : UnitRef → Nat → Nat → Prop}
    (h : Untouched s t R M) (hR : ∀ r n, R r n → R' r n) (hM : ∀ r m i, M r m i → M' r m i) : Untouched s t R' M' :=
  ⟨fun r n hn => h.1 r n (fun c => hn (hR r n c)), fun r m i hn => h.2.1 r m i (fun c => hn (hM r m i c)), h.2.2⟩

/-- Two changes one after the other touch no more than both together. -/
theorem Untouched.trans {s t u : State} {R R' : UnitRef → Nat → Prop} {M M' : UnitRef → Nat → Nat → Prop}
    (h : Untouched s t R M) (h' : Untouched t u R' M') :
    Untouched s u (fun r n => R r n ∨ R' r n) (fun r m i => M r m i ∨ M' r m i) :=
  ⟨fun r n hn => (h'.1 r n fun c => hn (.inr c)).trans (h.1 r n fun c => hn (.inl c)),
    fun r m i hn => (h'.2.1 r m i fun c => hn (.inr c)).trans (h.2.1 r m i fun c => hn (.inl c)),
    h'.2.2.1.trans h.2.2.1, h'.2.2.2.1.trans h.2.2.2.1, h'.2.2.2.2.trans h.2.2.2.2⟩

theorem untouched_setRes (s : State) (v : Word) : Untouched s (s.setRes v) (resReg s) noMem :=
  ⟨fun _ _ h => readReg_setRes s v h, fun _ m i _ => readMem_setRes s v m i, by simp, by simp, by simp⟩

/-- On port `A` the result register is `RES[A]`. -/
theorem resA_setRes {s : State} (h : s.port = .A) (v : Word) : (s.setRes v).resA = v := by simp [State.setRes, h]

/-- On port `A` the result register is register 4 of `SYS`. -/
theorem resReg_A {s : State} (h : s.port = .A) {r : UnitRef} {n : Nat} : resReg s r n ↔ r = .sys ∧ n = 4 := by
  simp [resReg, h, resNumber]

/-- A fault touches the first four registers of `SYS` alone. -/
theorem untouched_raise (s : State) (c : FaultCause) : Untouched s (s.raise c) (fun r n => r = .sys ∧ n ≤ 3) noMem := by
  refine ⟨fun r n h => ?_, fun r m i _ => readMem_raise s c m i, rfl, rfl, rfl⟩
  by_cases hr : r = .sys
  · subst hr
    rcases n with _ | _ | _ | _ | n
    · exact absurd ⟨rfl, by omega⟩ h
    · exact absurd ⟨rfl, by omega⟩ h
    · exact absurd ⟨rfl, by omega⟩ h
    · exact absurd ⟨rfl, by omega⟩ h
    · rcases n with _ | _ | n <;> simp [readReg, sysReg, State.raise]
  · exact readReg_raise s c hr n

theorem untouched_setRng (s : State) (g : Rng) : Untouched s (s.setRng g) (fun r n => r = .rng ∧ n ≤ 1) noMem := by
  refine ⟨fun r n h => ?_, fun r m i _ => ?_, rfl, rfl, rfl⟩
  · by_cases hr : r = .rng
    · subst hr
      rcases n with _ | _ | n
      · exact absurd ⟨rfl, by omega⟩ h
      · exact absurd ⟨rfl, by omega⟩ h
      · rfl
    · exact readReg_setRng s g hr n
  · by_cases hr : r = .rng
    · subst hr; rfl
    · exact readMem_setRng s g hr m i

theorem untouched_setRbuf (s : State) (g : Rbuf) {P : Nat → Prop} {Q : Nat → Prop}
    (hP : ∀ n, ¬ P n → rbufReg g n = rbufReg s.rbuf n) (hQ : ∀ i, ¬ Q i → memRead g.val i = memRead s.rbuf.val i) :
    Untouched s (s.setRbuf g) (fun r n => r = .rbuf ∧ P n) (fun r m i => r = .rbuf ∧ m = 0 ∧ Q i) := by
  refine ⟨fun r n h => ?_, fun r m i h => ?_, rfl, rfl, rfl⟩
  · by_cases hr : r = .rbuf
    · subst hr; exact hP n (fun c => h ⟨rfl, c⟩)
    · exact readReg_setRbuf s g hr n
  · by_cases hr : r = .rbuf
    · subst hr
      by_cases hm : m = 0
      · subst hm
        simp only [readMem, unitMem, onlyMem, State.setRbuf_rbuf, if_true]
        rw [hQ i (fun c => h ⟨rfl, rfl, c⟩)]
      · simp [readMem, unitMem, onlyMem, hm]
    · exact readMem_setRbuf s g hr m i

theorem untouched_setEng (s : State) (e : Engine) {P : Nat → Prop} (hP : ∀ n, ¬ P n → engReg e n = engReg s.eng n) :
    Untouched s (s.setEng e) (fun r n => r = .eng ∧ P n) noMem := by
  refine ⟨fun r n h => ?_, fun r m i _ => ?_, rfl, rfl, rfl⟩
  · by_cases hr : r = .eng
    · subst hr; exact hP n (fun c => h ⟨rfl, c⟩)
    · exact readReg_setEng s e hr n
  · by_cases hr : r = .eng
    · subst hr; rfl
    · exact readMem_setEng s e hr m i

theorem untouched_setIo (s : State) (b : Fin 4) (g : Mem) {Q : Nat → Prop}
    (hQ : ∀ i, ¬ Q i → memRead g i = memRead s.io[b] i) :
    Untouched s (s.setIo b g) noReg (fun r m i => r = .io b ∧ m = 0 ∧ Q i) := by
  refine ⟨fun r n _ => readReg_setIo s g n, fun r m i h => ?_, rfl, rfl, rfl⟩
  by_cases hr : r = .io b
  · subst hr
    by_cases hm : m = 0
    · subst hm
      have := hQ i (fun c => h ⟨rfl, rfl, c⟩)
      simp [readMem, unitMem, onlyMem, this]
    · simp [readMem, unitMem, onlyMem, hm]
  · exact readMem_setIo s g hr m i

theorem untouched_setLp1 (s : State) (p : Lp1Ref) (f : OnePole) {P : Nat → Prop}
    (hP : ∀ n, ¬ P n → onePoleReg f n = onePoleReg (s.lp1 p) n) :
    Untouched s (s.setLp1 p f) (fun r n => r = .lp1 p ∧ P n) noMem := by
  refine ⟨fun r n h => ?_, fun r m i _ => ?_, by simp, by simp, by simp⟩
  · by_cases hr : r = .lp1 p
    · subst hr; rw [readReg_setLp1_self]; exact hP n (fun c => h ⟨rfl, c⟩)
    · exact readReg_setLp1 s f hr n
  · by_cases hr : r = .lp1 p
    · subst hr; rfl
    · exact readMem_setLp1 s f hr m i

theorem untouched_setHp1 (s : State) (sd : Side) (f : OnePole) {P : Nat → Prop}
    (hP : ∀ n, ¬ P n → onePoleReg f n = onePoleReg (s.hp1 sd) n) :
    Untouched s (s.setHp1 sd f) (fun r n => r = .hp1 sd ∧ P n) noMem := by
  refine ⟨fun r n h => ?_, fun r m i _ => ?_, by simp, by simp, by simp⟩
  · by_cases hr : r = .hp1 sd
    · subst hr; rw [readReg_setHp1_self]; exact hP n (fun c => h ⟨rfl, c⟩)
    · exact readReg_setHp1 s f hr n
  · by_cases hr : r = .hp1 sd
    · subst hr; rfl
    · exact readMem_setHp1 s f hr m i

theorem untouched_setShelf (s : State) (p : ShelfRef) (f : Shelf) {P : Nat → Prop}
    (hP : ∀ n, ¬ P n → shelfReg p.kind f n = shelfReg p.kind (s.shelf p) n) :
    Untouched s (s.setShelf p f) (fun r n => r = .shelf p ∧ P n) noMem := by
  refine ⟨fun r n h => ?_, fun r m i _ => ?_, by simp, by simp, by simp⟩
  · by_cases hr : r = .shelf p
    · subst hr; rw [readReg_setShelf_self]; exact hP n (fun c => h ⟨rfl, c⟩)
    · exact readReg_setShelf s f hr n
  · by_cases hr : r = .shelf p
    · subst hr; rfl
    · exact readMem_setShelf s f hr m i

theorem untouched_setMap (s : State) (p : MapRef) (f : Allpass) {P Q : Nat → Prop}
    (hP : ∀ n, ¬ P n → mapReg f n = mapReg (s.map p) n)
    (hQ : ∀ i, ¬ Q i → memRead f.core.buf i = memRead (s.map p).core.buf i) :
    Untouched s (s.setMap p f) (fun r n => r = .map p ∧ P n) (fun r m i => r = .map p ∧ m = 0 ∧ Q i) := by
  refine ⟨fun r n h => ?_, fun r m i h => ?_, by simp, by simp, by simp⟩
  · by_cases hr : r = .map p
    · subst hr; rw [readReg_setMap_self]; exact hP n (fun c => h ⟨rfl, c⟩)
    · exact readReg_setMap s f hr n
  · by_cases hr : r = .map p
    · subst hr
      by_cases hm : m = 0
      · subst hm
        have := hQ i (fun c => h ⟨rfl, rfl, c⟩)
        simp [readMem, unitMem, onlyMem, this]
      · simp [readMem, unitMem, onlyMem, hm]
    · exact readMem_setMap s f hr m i

theorem untouched_setMdly (s : State) (p : MdlyRef) (f : ModDelay) {P Q : Nat → Prop}
    (hP : ∀ n, ¬ P n → mdlyReg f n = mdlyReg (s.mdly p) n)
    (hQ : ∀ i, ¬ Q i → memRead f.buf i = memRead (s.mdly p).buf i) :
    Untouched s (s.setMdly p f) (fun r n => r = .mdly p ∧ P n) (fun r m i => r = .mdly p ∧ m = 0 ∧ Q i) := by
  refine ⟨fun r n h => ?_, fun r m i h => ?_, by simp, by simp, by simp⟩
  · by_cases hr : r = .mdly p
    · subst hr; rw [readReg_setMdly_self]; exact hP n (fun c => h ⟨rfl, c⟩)
    · exact readReg_setMdly s f hr n
  · by_cases hr : r = .mdly p
    · subst hr
      by_cases hm : m = 0
      · subst hm
        have := hQ i (fun c => h ⟨rfl, rfl, c⟩)
        simp [readMem, unitMem, onlyMem, this]
      · simp [readMem, unitMem, onlyMem, hm]
    · exact readMem_setMdly s f hr m i

theorem untouched_setMtap (s : State) (sd : Side) (f : Multitap) {P : Nat → Prop} {Q : Nat → Nat → Prop}
    (hP : ∀ n, ¬ P n → mtapReg f n = mtapReg (s.mtap sd) n)
    (hQ : ∀ m i, ¬ Q m i → shownMem (mtapMem f m) i = shownMem (mtapMem (s.mtap sd) m) i) :
    Untouched s (s.setMtap sd f) (fun r n => r = .mtap sd ∧ P n) (fun r m i => r = .mtap sd ∧ Q m i) := by
  refine ⟨fun r n h => ?_, fun r m i h => ?_, by simp, by simp, by simp⟩
  · by_cases hr : r = .mtap sd
    · subst hr; rw [readReg_setMtap_self]; exact hP n (fun c => h ⟨rfl, c⟩)
    · exact readReg_setMtap s f hr n
  · by_cases hr : r = .mtap sd
    · subst hr
      rw [readMem_eq, readMem_eq, unitMem_setMtap_self]
      exact hQ m i (fun c => h ⟨rfl, c⟩)
    · exact readMem_setMtap s f hr m i

/-- The whole of a diffuser: its own registers and `SEEDV`, and its stages. -/
theorem untouched_setDiff (s : State) (p : DiffRef) (d : Diffuser) {P : Nat → Prop} {K : Fin 12 → Nat → Prop}
    {Q : Nat → Prop} {B : Fin 12 → Nat → Prop}
    (hP : ∀ n, ¬ P n → diffReg d n = diffReg (s.diff p) n)
    (hK : ∀ k : Fin 12, ∀ n, ¬ K k n → mapReg d.stage[k] n = mapReg (s.diff p).stage[k] n)
    (hQ : ∀ i, ¬ Q i → memRead d.seedV i = memRead (s.diff p).seedV i)
    (hB : ∀ k : Fin 12, ∀ i, ¬ B k i → memRead d.stage[k].core.buf i = memRead (s.diff p).stage[k].core.buf i) :
    Untouched s (s.setDiff p d) (fun r n => (r = .diff p ∧ P n) ∨ ∃ k, r = .map ⟨p, k⟩ ∧ K k n)
      (fun r m i => (r = .diff p ∧ m = 1 ∧ Q i) ∨ ∃ k, r = .map ⟨p, k⟩ ∧ m = 0 ∧ B k i) := by
  have hmap : ∀ k, (s.setDiff p d).map ⟨p, k⟩ = d.stage[k] := fun k => by simp [State.map]
  have hmap' : ∀ k, s.map ⟨p, k⟩ = (s.diff p).stage[k] := fun k => rfl
  refine ⟨fun r n h => ?_, fun r m i h => ?_, by simp, by simp, by simp⟩
  · by_cases hr : r = .diff p
    · subst hr; rw [readReg_setDiff_self]; exact hP n (fun c => h (.inl ⟨rfl, c⟩))
    · by_cases hk : ∃ k, r = .map ⟨p, k⟩
      · obtain ⟨k, rfl⟩ := hk
        simp only [readReg, hmap, hmap']
        exact hK k n (fun c => h (.inr ⟨k, rfl, c⟩))
      · exact readReg_setDiff s d hr (fun k e => hk ⟨k, e⟩) n
  · by_cases hr : r = .diff p
    · subst hr
      by_cases hm : m = 1
      · subst hm
        have := hQ i (fun c => h (.inl ⟨rfl, rfl, c⟩))
        simp [readMem, unitMem, onlyMem, this]
      · simp [readMem, unitMem, onlyMem, hm]
    · by_cases hk : ∃ k, r = .map ⟨p, k⟩
      · obtain ⟨k, rfl⟩ := hk
        by_cases hm : m = 0
        · subst hm
          simp only [readMem, unitMem, onlyMem, if_true, hmap, hmap']
          rw [hB k i (fun c => h (.inr ⟨k, rfl, rfl, c⟩))]
        · simp [readMem, unitMem, onlyMem, hm]
      · exact readMem_setDiff s d hr (fun k e => hk ⟨k, e⟩) m i

/-- A write of one word leaves every other word as it was, whatever the form of the memory. -/
theorem memRead_memWrite_ne (m : Mem) {a b : Nat} (v : Word) (h : b ≠ a) : memRead (memWrite m a v) b = memRead m b := by
  induction m with
  | nil =>
    unfold memWrite
    split
    · rfl
    · simp [memRead, h]
  | cons c m ih =>
    obtain ⟨d, w⟩ := c
    unfold memWrite
    repeat' split
    all_goals simp_all [memRead]

/-- A list written leaves every word outside it as it was. -/
theorem memRead_memWriteList_outside (m : Mem) (i : Nat) (vs : List Word) {b : Nat} (h : b < i ∨ i + vs.length ≤ b) :
    memRead (memWriteList m i vs) b = memRead m b := by
  induction vs generalizing m i with
  | nil => rfl
  | cons v vs ih =>
    simp only [List.length_cons] at h
    rw [memWriteList, ih _ _ (by omega), memRead_memWrite_ne _ _ (by omega)]

end Sys2Proof.Machine
end

