-- ==== Sys2Proof/Machine/Reference.lean ====
section
/-! DEFINITION. The instantiations that the spec suggests for the open parameters (log entry 14): the generator constants
(spec/40_rng.md R131), the test epsilon (spec/95_test_vectors.md section 0), `shelf_coeffs` (spec/42_shelf.md R174) and
`REFDERIVE` (spec/49_engine.md R365). The machine uses none of them; tests and statements about them may. -/

namespace Sys2Proof.Machine

open Config (Params ShelfKind ShelfCoeffs DeriveArgs ChannelConfig DelayConfig MultitapConfig DiffuserConfig LineConfig)

/-- The suggested `LCG_A` (R131). -/
def refLcgA : BitVec 64 := 22695477#64
/-- The suggested `LCG_C` (R131). -/
def refLcgC : BitVec 64 := 1#64
/-- The test value of both epsilons, the binary32 nearest 1e-7 (95_test_vectors.md section 0). -/
def refEps : F := 0x33D6BF95#32

/-- The suggested `shelf_coeffs` (R174), in the order of evaluation written there. -/
def refShelfCoeffs (fpow10 fsin fcos : F → F) (k : ShelfKind) (f g : F) : ShelfCoeffs :=
  let a := fpow10 (fdiv g (itof 40))
  let w := fdiv (fmul Config.twoPi f) Config.fs
  let cw := fcos w
  let al := fdiv (fsin w) (fmul ftwo Config.shelfQ)
  let r := fmul (fmul ftwo (fsqrt a)) al
  let p := fadd a fone
  let m := fsub a fone
  match k with
  | .low =>
    let b0 := fmul a (fadd (fsub p (fmul m cw)) r)
    let b1 := fmul (fmul ftwo a) (fsub m (fmul p cw))
    let b2 := fmul a (fsub (fsub p (fmul m cw)) r)
    let a0 := fadd (fadd p (fmul m cw)) r
    let a1 := fmul (fneg ftwo) (fadd m (fmul p cw))
    let a2 := fsub (fadd p (fmul m cw)) r
    { b0 := fdiv b0 a0, b1 := fdiv b1 a0, b2 := fdiv b2 a0, a1 := fdiv a1 a0, a2 := fdiv a2 a0 }
  | .high =>
    let b0 := fmul a (fadd (fadd p (fmul m cw)) r)
    let b1 := fmul (fmul (fneg ftwo) a) (fadd m (fmul p cw))
    let b2 := fmul a (fsub (fadd p (fmul m cw)) r)
    let a0 := fadd (fsub p (fmul m cw)) r
    let a1 := fmul ftwo (fsub m (fmul p cw))
    let a2 := fsub (fsub p (fmul m cw)) r
    { b0 := fdiv b0 a0, b1 := fdiv b1 a0, b2 := fdiv b2 a0, a1 := fdiv a1 a0, a2 := fdiv a2 a0 }

/-- The modulation amount of `REFDERIVE` in samples: `ma * 120` (R365). -/
def refAmount (d : DeriveArgs) : F := fmul d.modAmount (itof 120)

/-- The modulation rate of `REFDERIVE` in cycles per sample: `(resp2dec(mr) * 5) / FS` (R365). -/
def refRate (cfg : Params) (d : DeriveArgs) : F := fdiv (fmul (resp2dec cfg d.modRate) (itof 5)) Config.fs

/-- The diffuser fields of `REFDERIVE` with the seed given (R365). -/
def refDiffuser (cfg : Params) (d : DeriveArgs) (seed : Word) : DiffuserConfig where
  stages := (1 + ftoiFloor (fmul d.diffusion (itof 11))).toNat
  dly := (ftoiFloor (fmul (fadd (itof 10) (fmul (itof 90) d.size)) (fdiv Config.fs (itof 1000)))).toNat
  fb := fmul (ratio 7 10) d.diffusion
  modA := refAmount d
  modR := refRate cfg d
  seed := seed
  interp := true
  modEn := true

/-- `0.7 + 0.3 * s` (R365). -/
def refScale (s : F) : F := fadd (ratio 7 10) (fmul (ratio 3 10) s)

/-- The fields of line `j` of `REFDERIVE`, from the 36 random values `s` (R365). -/
def refLine (cfg : Params) (d : DeriveArgs) (lpFc : F) (s : List F) (j : Nat) : LineConfig where
  delay := {
    dly := (max 1 (ftoiFloor (fmul
      (fmul (fadd (ratio 2 100) (fmul (ratio 98 100) (resp2dec cfg d.size))) Config.fs)
      (fadd fhalf (s.getD j fzero))))).toNat
    modA := fmul (refAmount d) (refScale (s.getD (12 + j) fzero))
    modR := fmul (refRate cfg d) (refScale (s.getD (24 + j) fzero)) }
  flags := 0b01000#5
  df := refDiffuser cfg d (BitVec.ofNat 32 (16 + j))
  lsF := itof 200
  lsG := fzero
  hsF := itof 4000
  hsG := fzero
  dampFc := lpFc

/-- `REFDERIVE` (R365); the arguments carry the cross seed of the side (R348, R362 (f)). -/
def refDerive (cfg : Params) (d : DeriveArgs) : ChannelConfig :=
  let lpFc := fadd (itof 400) (fmul (resp4oct cfg d.highCut) (itof 19600))
  let s := generateCross cfg 3 d.xseed 36
  { inMix := d.inputMix
    dry := fzero
    early := fhalf
    lineOut := fone
    flags := 0b1011#4
    lines := 8
    decayT := fmul (fadd (ratio 5 100) (fmul (ratio 5995 100) (resp3dec cfg d.decay))) Config.fs
    xseed := d.xseed
    hpFc := fadd (itof 20) (fmul (resp4oct cfg d.lowCut) (itof 980))
    lpFc := lpFc
    pre := {
      dly := (max 1 (ftoiFloor (fmul (resp2dec cfg d.predelay) Config.fs))).toNat
      modA := fzero
      modR := fzero }
    mt := { taps := 12, len := 4800, decay := fone, seed := 1 }
    ed := refDiffuser cfg d 2
    line := vecOf12 fun j => refLine cfg d lpFc s j.val }

/-- The open parameters at the suggested values, the elementary functions given (95_test_vectors.md section 0). -/
def refParams (fsin fcos fexp fpow10 fpow2 : F → F) : Params :=
  let base : Params := {
    lcgA := refLcgA, lcgC := refLcgC, epsLp := refEps, epsHp := refEps
    fsin := fsin, fcos := fcos, fexp := fexp, fpow10 := fpow10, fpow2 := fpow2
    shelfCoeffs := refShelfCoeffs fpow10 fsin fcos
    derive := (default : Params).derive }
  { base with derive := refDerive base }

end Sys2Proof.Machine
end

