-- ==== Sys2Proof/Tests/Slice0.lean ====
section
/-! SUPPORT. Tests: the words of spec/ decoded, an ill-formed term for each check of WellFormed.lean, the worked examples of
the rules, and for every statement of Certificates/Slice0 a concrete case that meets its hypotheses. -/

namespace Sys2Proof.Tests

open Machine

-- One theorem after the other: the many small proofs of this file at once ask for more threads than the check allows.
set_option Elab.async false

/-! ## Decoding: the example words of the rules (opcode, unit, sub, imm) -/

/-- `NOP` (49_engine.md R380): 0x00_0000_00_00000000. -/
theorem test_decode_nop : decode 0x0000000000000000#64 = .ok (.nop) := rfl

/-- `RESET` (49_engine.md R381): 0x01_0000_00_00000000. -/
theorem test_decode_reset : decode 0x0100000000000000#64 = .ok (.reset) := rfl

/-- `RDREG` (30_encoding.md, 49_engine.md R385): 0x02_0000_00_00000000. -/
theorem test_decode_rdreg : decode 0x0200000000000000#64 = .ok (.rdreg 0x0000#16 0x00#8) := rfl

/-- `RDMEM` (49_engine.md R386): 0x03_0060_00_00000003. -/
theorem test_decode_rdmem : decode 0x0300600000000003#64 = .ok (.rdmem 0x0060#16 0x00#8 0x00000003#32) := rfl

/-- `CLRF` (49_engine.md R382): 0x04_0000_00_00000000. -/
theorem test_decode_clrf : decode 0x0400000000000000#64 = .ok (.clrf) := rfl

/-- `IO.WR` (49_engine.md R383): 0x05_00A0_00_3F800000. -/
theorem test_decode_ioWr : decode 0x0500A0003F800000#64 = .ok (.ioWr 0x00A0#16 0x00#8 0x3F800000#32) := rfl

/-- `IO.RD` (49_engine.md R384): 0x06_00A2_01_00000000. -/
theorem test_decode_ioRd : decode 0x0600A20100000000#64 = .ok (.ioRd 0x00A2#16 0x01#8) := rfl

/-- `RNG.SEED` (40_rng.md R136): 0x10_0040_00_00003039. -/
theorem test_decode_rngSeed : decode 0x1000400000003039#64 = .ok (.rngSeed 0x0040#16 0x00003039#32) := rfl

/-- `RNG.NEXT` (from 30_encoding.md R104, R106): 0x11_0040_00_00000000. -/
theorem test_decode_rngNext : decode 0x1100400000000000#64 = .ok (.rngNext 0x0040#16) := rfl

/-- `RB.SETSEED` (40_rng.md R138): 0x12_0060_00_FFFFFFFF. -/
theorem test_decode_rbSetSeed : decode 0x12006000FFFFFFFF#64 = .ok (.rbSetSeed 0x0060#16 0xFFFFFFFF#32) := rfl

/-- `RB.SETX` (40_rng.md R139): 0x13_0060_00_3F000000. -/
theorem test_decode_rbSetX : decode 0x130060003F000000#64 = .ok (.rbSetX 0x0060#16 0x3F000000#32) := rfl

/-- `RB.GEN` (40_rng.md R140): 0x14_0060_00_00000004. -/
theorem test_decode_rbGen : decode 0x1400600000000004#64 = .ok (.rbGen 0x0060#16 0x00000004#32) := rfl

/-- `RB.GENX` (from 30_encoding.md R104, R106): 0x15_0060_00_00000004. -/
theorem test_decode_rbGenX : decode 0x1500600000000004#64 = .ok (.rbGenX 0x0060#16 0x00000004#32) := rfl

/-- `LP.SETFC` (41_onepole.md R152): 0x20_4040_00_463B8000. -/
theorem test_decode_lpSetFc : decode 0x20404000463B8000#64 = .ok (.lpSetFc 0x4040#16 0x463B8000#32) := rfl

/-- `LP.STEP` (30_encoding.md, 41_onepole.md R153): 0x21_4040_00_3F800000. -/
theorem test_decode_lpStep : decode 0x214040003F800000#64 = .ok (.lpStep 0x4040#16 0x3F800000#32) := rfl

/-- `LP.CLR` (41_onepole.md R154): 0x22_B6A0_00_00000000. -/
theorem test_decode_lpClr : decode 0x22B6A00000000000#64 = .ok (.lpClr 0xB6A0#16) := rfl

/-- `HP.SETFC` (41_onepole.md R155): 0x24_4020_00_41A00000. -/
theorem test_decode_hpSetFc : decode 0x2440200041A00000#64 = .ok (.hpSetFc 0x4020#16 0x41A00000#32) := rfl

/-- `HP.STEP` (from 30_encoding.md R104, R106): 0x25_4020_00_3F800000. -/
theorem test_decode_hpStep : decode 0x254020003F800000#64 = .ok (.hpStep 0x4020#16 0x3F800000#32) := rfl

/-- `HP.CLR` (41_onepole.md R157): 0x26_4020_00_00000000. -/
theorem test_decode_hpClr : decode 0x2640200000000000#64 = .ok (.hpClr 0x4020#16) := rfl

/-- `SH.SETF` (42_shelf.md R175): 0x30_6060_00_43480000. -/
theorem test_decode_shSetF : decode 0x3060600043480000#64 = .ok (.shSetF 0x6060#16 0x43480000#32) := rfl

/-- `SH.SETG` (42_shelf.md R176): 0x31_6080_00_C2900000. -/
theorem test_decode_shSetG : decode 0x31608000C2900000#64 = .ok (.shSetG 0x6080#16 0xC2900000#32) := rfl

/-- `SH.STEP` (from 30_encoding.md R104, R106): 0x32_6060_00_3F800000. -/
theorem test_decode_shStep : decode 0x326060003F800000#64 = .ok (.shStep 0x6060#16 0x3F800000#32) := rfl

/-- `SH.CLR` (42_shelf.md R178): 0x33_6060_00_00000000. -/
theorem test_decode_shClr : decode 0x3360600000000000#64 = .ok (.shClr 0x6060#16) := rfl

/-- `AP.SETDLY` (43_allpass.md R199): 0x40_40B0_00_00000003. -/
theorem test_decode_apSetDly : decode 0x4040B00000000003#64 = .ok (.apSetDly 0x40B0#16 0x00000003#32) := rfl

/-- `AP.SETFB` (43_allpass.md R200): 0x41_40B0_00_00000000. -/
theorem test_decode_apSetFb : decode 0x4140B00000000000#64 = .ok (.apSetFb 0x40B0#16 0x00000000#32) := rfl

/-- `AP.SETMODA` (43_allpass.md R201): 0x42_40B0_00_40200000. -/
theorem test_decode_apSetModA : decode 0x4240B00040200000#64 = .ok (.apSetModA 0x40B0#16 0x40200000#32) := rfl

/-- `AP.SETMODR` (43_allpass.md R202): 0x43_40B0_00_3D000000. -/
theorem test_decode_apSetModR : decode 0x4340B0003D000000#64 = .ok (.apSetModR 0x40B0#16 0x3D000000#32) := rfl

/-- `AP.SETINTERP` (43_allpass.md R203): 0x44_40B0_00_00000001. -/
theorem test_decode_apSetInterp : decode 0x4440B00000000001#64 = .ok (.apSetInterp 0x40B0#16 0x00000001#32) := rfl

/-- `AP.SETMODEN` (43_allpass.md R204): 0x45_40B0_00_00000000. -/
theorem test_decode_apSetModEn : decode 0x4540B00000000000#64 = .ok (.apSetModEn 0x40B0#16 0x00000000#32) := rfl

/-- `AP.STEP` (from 30_encoding.md R104, R106): 0x46_40B0_00_3F800000. -/
theorem test_decode_apStep : decode 0x4640B0003F800000#64 = .ok (.apStep 0x40B0#16 0x3F800000#32) := rfl

/-- `AP.CLR` (43_allpass.md R206): 0x47_80B3_00_00000000. -/
theorem test_decode_apClr : decode 0x4780B30000000000#64 = .ok (.apClr 0x80B3#16) := rfl

/-- `DF.SETSTAGES` (44_diffuser.md R224): 0x50_40A0_00_00000008. -/
theorem test_decode_dfSetStages : decode 0x5040A00000000008#64 = .ok (.dfSetStages 0x40A0#16 0x00000008#32) := rfl

/-- `DF.SETDLY` (44_diffuser.md R225): 0x51_40A0_00_000003E8. -/
theorem test_decode_dfSetDly : decode 0x5140A000000003E8#64 = .ok (.dfSetDly 0x40A0#16 0x000003E8#32) := rfl

/-- `DF.SETFB` (44_diffuser.md R226): 0x52_40A0_00_3F000000. -/
theorem test_decode_dfSetFb : decode 0x5240A0003F000000#64 = .ok (.dfSetFb 0x40A0#16 0x3F000000#32) := rfl

/-- `DF.SETMODA` (44_diffuser.md R227): 0x53_40A0_00_42100000. -/
theorem test_decode_dfSetModA : decode 0x5340A00042100000#64 = .ok (.dfSetModA 0x40A0#16 0x42100000#32) := rfl

/-- `DF.SETMODR` (44_diffuser.md R228): 0x54_40A0_00_39000000. -/
theorem test_decode_dfSetModR : decode 0x5440A00039000000#64 = .ok (.dfSetModR 0x40A0#16 0x39000000#32) := rfl

/-- `DF.SETSEED` (44_diffuser.md R229): 0x55_40A0_00_00000007. -/
theorem test_decode_dfSetSeed : decode 0x5540A00000000007#64 = .ok (.dfSetSeed 0x40A0#16 0x00000007#32) := rfl

/-- `DF.SETX` (44_diffuser.md R230): 0x56_B640_00_3E800000. -/
theorem test_decode_dfSetX : decode 0x56B640003E800000#64 = .ok (.dfSetX 0xB640#16 0x3E800000#32) := rfl

/-- `DF.SETINTERP` (44_diffuser.md R231): 0x57_40A0_00_00000001. -/
theorem test_decode_dfSetInterp : decode 0x5740A00000000001#64 = .ok (.dfSetInterp 0x40A0#16 0x00000001#32) := rfl

/-- `DF.SETMODEN` (44_diffuser.md R232): 0x58_B640_00_00000000. -/
theorem test_decode_dfSetModEn : decode 0x58B6400000000000#64 = .ok (.dfSetModEn 0xB640#16 0x00000000#32) := rfl

/-- `DF.STEP` (from 30_encoding.md R104, R106): 0x59_40A0_00_3F800000. -/
theorem test_decode_dfStep : decode 0x5940A0003F800000#64 = .ok (.dfStep 0x40A0#16 0x3F800000#32) := rfl

/-- `DF.CLR` (44_diffuser.md R234): 0x5A_40A0_00_00000000. -/
theorem test_decode_dfClr : decode 0x5A40A00000000000#64 = .ok (.dfClr 0x40A0#16) := rfl

/-- `MD.SETDLY` (45_moddelay.md R252): 0x60_4060_00_000012C0. -/
theorem test_decode_mdSetDly : decode 0x60406000000012C0#64 = .ok (.mdSetDly 0x4060#16 0x000012C0#32) := rfl

/-- `MD.SETMODA` (45_moddelay.md R253): 0x61_6020_00_40200000. -/
theorem test_decode_mdSetModA : decode 0x6160200040200000#64 = .ok (.mdSetModA 0x6020#16 0x40200000#32) := rfl

/-- `MD.SETMODR` (45_moddelay.md R254): 0x62_6020_00_3D000000. -/
theorem test_decode_mdSetModR : decode 0x626020003D000000#64 = .ok (.mdSetModR 0x6020#16 0x3D000000#32) := rfl

/-- `MD.STEP` (from 30_encoding.md R104, R106): 0x63_4060_00_3F800000. -/
theorem test_decode_mdStep : decode 0x634060003F800000#64 = .ok (.mdStep 0x4060#16 0x3F800000#32) := rfl

/-- `MD.CLR` (45_moddelay.md R256): 0x64_4060_00_00000000. -/
theorem test_decode_mdClr : decode 0x6440600000000000#64 = .ok (.mdClr 0x4060#16) := rfl

/-- `MT.SETTAPS` (46_multitap.md R274): 0x70_4080_00_0000000C. -/
theorem test_decode_mtSetTaps : decode 0x704080000000000C#64 = .ok (.mtSetTaps 0x4080#16 0x0000000C#32) := rfl

/-- `MT.SETLEN` (46_multitap.md R275): 0x71_4080_00_000012C0. -/
theorem test_decode_mtSetLen : decode 0x71408000000012C0#64 = .ok (.mtSetLen 0x4080#16 0x000012C0#32) := rfl

/-- `MT.SETDECAY` (46_multitap.md R276): 0x72_4080_00_3F800000. -/
theorem test_decode_mtSetDecay : decode 0x724080003F800000#64 = .ok (.mtSetDecay 0x4080#16 0x3F800000#32) := rfl

/-- `MT.SETSEED` (46_multitap.md R277): 0x73_4080_00_FFFFFFFF. -/
theorem test_decode_mtSetSeed : decode 0x73408000FFFFFFFF#64 = .ok (.mtSetSeed 0x4080#16 0xFFFFFFFF#32) := rfl

/-- `MT.SETX` (46_multitap.md R278): 0x74_4080_00_3F000000. -/
theorem test_decode_mtSetX : decode 0x744080003F000000#64 = .ok (.mtSetX 0x4080#16 0x3F000000#32) := rfl

/-- `MT.STEP` (from 30_encoding.md R104, R106): 0x75_4080_00_3F800000. -/
theorem test_decode_mtStep : decode 0x754080003F800000#64 = .ok (.mtStep 0x4080#16 0x3F800000#32) := rfl

/-- `MT.CLR` (46_multitap.md R280): 0x76_4080_00_00000000. -/
theorem test_decode_mtClr : decode 0x7640800000000000#64 = .ok (.mtClr 0x4080#16) := rfl

/-- `DL.SETFB` (47_delayline.md R294): 0x80_6000_00_3F000000. -/
theorem test_decode_dlSetFb : decode 0x806000003F000000#64 = .ok (.dlSetFb 0x6000#16 0x3F000000#32) := rfl

/-- `DL.SETFLAGS` (47_delayline.md R295): 0x81_6000_00_00000018. -/
theorem test_decode_dlSetFlags : decode 0x8160000000000018#64 = .ok (.dlSetFlags 0x6000#16 0x00000018#32) := rfl

/-- `DL.PROC` (47_delayline.md R297): 0x82_6000_00_00000080. -/
theorem test_decode_dlProc : decode 0x8260000000000080#64 = .ok (.dlProc 0x6000#16 0x00000080#32) := rfl

/-- `DL.CLR` (47_delayline.md R298): 0x83_A600_00_00000000. -/
theorem test_decode_dlClr : decode 0x83A6000000000000#64 = .ok (.dlClr 0xA600#16) := rfl

/-- `CH.SETINMIX` (48_channel.md R319): 0x90_4000_00_3F800000. -/
theorem test_decode_chSetInMix : decode 0x904000003F800000#64 = .ok (.chSetInMix 0x4000#16 0x3F800000#32) := rfl

/-- `CH.SETFLAGS` (48_channel.md R320): 0x91_8000_00_0000000B. -/
theorem test_decode_chSetFlags : decode 0x918000000000000B#64 = .ok (.chSetFlags 0x8000#16 0x0000000B#32) := rfl

/-- `CH.SETLINES` (48_channel.md R321): 0x92_4000_00_00000008. -/
theorem test_decode_chSetLines : decode 0x9240000000000008#64 = .ok (.chSetLines 0x4000#16 0x00000008#32) := rfl

/-- `CH.SETDECAY` (48_channel.md R322): 0x93_4000_00_47BB8000. -/
theorem test_decode_chSetDecay : decode 0x9340000047BB8000#64 = .ok (.chSetDecay 0x4000#16 0x47BB8000#32) := rfl

/-- `CH.SETDRY` (48_channel.md R323): 0x94_4000_00_00000000. -/
theorem test_decode_chSetDry : decode 0x9440000000000000#64 = .ok (.chSetDry 0x4000#16 0x00000000#32) := rfl

/-- `CH.SETEARLY` (48_channel.md R324): 0x95_8000_00_3F800000. -/
theorem test_decode_chSetEarly : decode 0x958000003F800000#64 = .ok (.chSetEarly 0x8000#16 0x3F800000#32) := rfl

/-- `CH.SETLINEOUT` (48_channel.md R325): 0x96_4000_00_BF000000. -/
theorem test_decode_chSetLineOut : decode 0x96400000BF000000#64 = .ok (.chSetLineOut 0x4000#16 0xBF000000#32) := rfl

/-- `CH.SETX` (48_channel.md R326): 0x97_8000_00_3E800000. -/
theorem test_decode_chSetX : decode 0x978000003E800000#64 = .ok (.chSetX 0x8000#16 0x3E800000#32) := rfl

/-- `CH.PROC` (48_channel.md R327): 0x98_4000_00_00000080. -/
theorem test_decode_chProc : decode 0x9840000000000080#64 = .ok (.chProc 0x4000#16 0x00000080#32) := rfl

/-- `CH.CLR` (48_channel.md R328): 0x99_4000_00_00000000. -/
theorem test_decode_chClr : decode 0x9940000000000000#64 = .ok (.chClr 0x4000#16) := rfl

/-- `EN.SETP` (30_encoding.md, 49_engine.md R351): 0xA0_0020_02_3E800000. -/
theorem test_decode_enSetP : decode 0xA00020023E800000#64 = .ok (.enSetP 0x0020#16 0x02#8 0x3E800000#32) := rfl

/-- `EN.GETP` (49_engine.md R352): 0xA1_0020_02_00000000. -/
theorem test_decode_enGetP : decode 0xA100200200000000#64 = .ok (.enGetP 0x0020#16 0x02#8) := rfl

/-- `EN.PROC` (49_engine.md R355): 0xA2_0020_00_00000080. -/
theorem test_decode_enProc : decode 0xA200200000000080#64 = .ok (.enProc 0x0020#16 0x00000080#32) := rfl

/-- `EN.CLR` (49_engine.md R359): 0xA3_0020_00_00000000. -/
theorem test_decode_enClr : decode 0xA300200000000000#64 = .ok (.enClr 0x0020#16) := rfl

/-- `EN.SYNC` (49_engine.md R354): 0xA4_0020_00_00000000. -/
theorem test_decode_enSync : decode 0xA400200000000000#64 = .ok (.enSync 0x0020#16) := rfl

/-- `FN.R2D` (49_engine.md R344): 0xB0_0080_00_3F000000. -/
theorem test_decode_fnR2d : decode 0xB00080003F000000#64 = .ok (.fnR2d 0x0080#16 0x3F000000#32) := rfl

/-- `FN.R3D` (49_engine.md R345): 0xB1_0080_00_3F800000. -/
theorem test_decode_fnR3d : decode 0xB10080003F800000#64 = .ok (.fnR3d 0x0080#16 0x3F800000#32) := rfl

/-- `FN.R4O` (49_engine.md R346): 0xB2_0080_00_3E800000. -/
theorem test_decode_fnR4o : decode 0xB20080003E800000#64 = .ok (.fnR4o 0x0080#16 0x3E800000#32) := rfl

/-- `FN.DB2LIN` (49_engine.md R347): 0xB3_0080_00_C0400000. -/
theorem test_decode_fnDb2Lin : decode 0xB3008000C0400000#64 = .ok (.fnDb2Lin 0x0080#16 0xC0400000#32) := rfl
/-! ## Words that are no command -/

/-- 49_engine.md R380: a NOP with any other bit set is no command (30_encoding.md R107). -/
theorem test_decode_unused_bit : decode 0x0000000000000001#64 = .error (.unusedField 0#8) := rfl

/-- R108: opcode 0xFF is in no family. -/
theorem test_decode_unknown : decode 0xFF00000000000000#64 = .error (.unknownOpcode 0xFF#8) := rfl

/-- R104: no unit at side 3, at line 12, at block 6, at a stage of a unit that is no diffuser, at bank 4. -/
theorem test_no_unit : unitOf 0xC000#16 = none ∧ unitOf 0x7800#16 = none ∧ unitOf 0x40C0#16 = none ∧
    unitOf 0x4030#16 = none ∧ unitOf 0x00A4#16 = none ∧ unitOf 0x40BC#16 = none ∧ unitOf 0x2000#16 = none := by decide

/-! ## Ill-formed terms, one for each check of WellFormed.lean -/

theorem test_wf_ok : (Instr.lpStep 0x4040#16 0x3F800000#32).wf = true := rfl
theorem test_wf_class : (Instr.lpStep 0x4020#16 0x3F800000#32).wf = false := rfl
theorem test_wf_no_unit : (Instr.apClr 0xC000#16).wf = false := rfl
theorem test_wf_reg_class : (Instr.rdreg 0x0080#16 0#8).wf = false := rfl
theorem test_wf_reg_number : (Instr.rdreg 0x4060#16 4#8).wf = false := rfl
theorem test_wf_mem_class : (Instr.rdmem 0x4000#16 0#8 0#32).wf = false := rfl
theorem test_wf_mem_index : (Instr.rdmem 0x0060#16 0#8 768#32).wf = false := rfl
theorem test_wf_mem_number : (Instr.rdmem 0x40A0#16 0#8 0#32).wf = false := rfl
theorem test_wf_index : (Instr.ioWr 0x00A0#16 128#8 0#32).wf = false := rfl
theorem test_wf_count : (Instr.rbGen 0x0060#16 769#32).wf = false := rfl
theorem test_wf_unit_interval : (Instr.rbSetX 0x0060#16 0x3F800001#32).wf = false := rfl
theorem test_wf_minus_zero : (Instr.mtSetX 0x4080#16 0x80000000#32).wf = true := rfl
theorem test_wf_finite : (Instr.lpSetFc 0x4040#16 0x7F800000#32).wf = false := rfl
theorem test_wf_gain_nan : (Instr.shSetG 0x6060#16 0x7FC00000#32).wf = false := rfl
theorem test_wf_gain_inf : (Instr.shSetG 0x6060#16 0xFF800000#32).wf = true := rfl
theorem test_wf_delay : (Instr.apSetDly 0x40B0#16 19199#32).wf = false := rfl
theorem test_wf_amount : (Instr.apSetModA 0x40B0#16 0x46960001#32).wf = false := rfl
theorem test_wf_rate : (Instr.mdSetModR 0x4060#16 0xBF800001#32).wf = false := rfl
theorem test_wf_diff_rate : (Instr.dfSetModR 0x40A0#16 0x3F400000#32).wf = false := rfl
theorem test_wf_bool : (Instr.dfSetInterp 0x40A0#16 2#32).wf = false := rfl
theorem test_wf_stages : (Instr.dfSetStages 0x40A0#16 13#32).wf = false := rfl
theorem test_wf_taps : (Instr.mtSetTaps 0x4080#16 0#32).wf = false := rfl
theorem test_wf_len : (Instr.mtSetLen 0x4080#16 384000#32).wf = false := rfl
theorem test_wf_mask : (Instr.dlSetFlags 0x6000#16 32#32).wf = false := rfl
theorem test_wf_lines : (Instr.chSetLines 0x4000#16 13#32).wf = false := rfl
theorem test_wf_decay : (Instr.chSetDecay 0x4000#16 0x80000000#32).wf = false := rfl
theorem test_wf_block : (Instr.enProc 0x0020#16 129#32).wf = false := rfl
theorem test_wf_key : (Instr.enGetP 0x0020#16 10#8).wf = false := rfl

/-! ## Constants: a decimal literal is the binary32 nearest it (00_scope.md R8, R12) -/

theorem test_const_literals :
    Config.fs = itof 48000 ∧ Config.fcClamp = ratio 499 1000 ∧ Config.flushThresh = ratio 1 (10 ^ 9) ∧
    Config.mtDecayK = ratio 33 10 ∧ Config.diffScaleLo = ratio 85 100 ∧ Config.diffScaleW = ratio 3 10 ∧
    Config.tenth = ratio 1 10 ∧ Config.shelfGainLim = itof 60 ∧ Config.decayDb = itof (-60) ∧
    Config.mtDbMin = itof (-20) ∧ Config.mtDbWidth = itof 20 := by decide +kernel

/-- 49_engine.md R341 to R343 (the patterns) and R365 (the decay range, 0.05 s and 60 s in samples). -/
theorem test_const_curves :
    hundred99ths = ratio 100 99 ∧ hundredth = ratio 1 100 ∧ thousand999ths = ratio 1000 999 ∧
    thousandth = ratio 1 1000 ∧ sixteen15ths = ratio 16 15 ∧ sixteenth = ratio 1 16 ∧
    decayMin = itof 2400 ∧ decayMax = itof 2880000 := by decide +kernel

/-- 49_engine.md R349: the defaults 0, 0.5, 0.5, 0.7, 0.3, 0, 1, 0.5, 0.3, 0.3. -/
theorem test_const_defaults :
    Config.defaultParams = #v[fzero, ratio 1 2, ratio 1 2, ratio 7 10, ratio 3 10, fzero, fone, ratio 1 2,
      ratio 3 10, ratio 3 10] := by decide +kernel

/-! ## Worked examples of the rules -/

/-- 41_onepole.md R151: the cutoff limit is 23952.0. -/
theorem test_cutoff_limit : fcLimit = itof 23952 := by decide +kernel

/-- 40_rng.md R133: 0, 0xFFFFFF7F and 0xFFFFFF80. -/
theorem test_u32_to_unit : u32ToUnit 0#32 = 0#32 ∧ u32ToUnit 0xFFFFFF7F#32 = 0x3F7FFFFF#32 ∧
    u32ToUnit 0xFFFFFF80#32 = 0x3F800000#32 := by decide +kernel

/-- The suggested generator of 40_rng.md R131, the other open parameters zero. -/
def suggested : Config.Params := { (default : Config.Params) with lcgA := 22695477, lcgC := 1 }

/-- R137: three values of seed 0. -/
theorem test_generate : generate suggested 0 3 = [0x2F800000#32, 0x3BAD271B#32, 0x3F0082A5#32] := by decide +kernel

/-- R141: four values of seed 0 at cross seed 0.5. -/
theorem test_generateCross : generateCross suggested 0 0x3F000000#32 4 =
    [0x3EFEA5B2#32, 0x3E838C45#32, 0x3ED6A16A#32, 0x3EFC70CC#32] := by decide +kernel

/-- A one-pole filter with `B0` = `A1` = 0.5 (R153, R156). -/
def halfPole (z : F) : OnePole := { fc := 0, b0 := fhalf, a1 := fhalf, z := z }

/-- R153: from 0.75, a zero sample gives 0.375 (the epsilon is the smallest positive value here). -/
theorem test_lp_step : lp1Step default (halfPole 0x3F400000#32) fzero = (0x3EC00000#32, halfPole 0x3EC00000#32) := by
  decide +kernel

/-- R452: the silence test is signed: a large negative state is forced to zero. -/
theorem test_lp_silence : (lp1Step default (halfPole 0xC2C80000#32) 0x80000000#32).1 = fzero := by decide +kernel

/-- R156: from 0.5, a sample 1.0 gives 0.25 and leaves 0.75. -/
theorem test_hp_step : hp1Step default (halfPole 0x3F000000#32) fone = (0x3E800000#32, halfPole 0x3F400000#32) := by
  decide +kernel

/-- R177: the second sample of the example gives 0.5. -/
theorem test_shelf_step :
    (shelfStep { blankShelf with
      coeffs := { b0 := fhalf, b1 := 0x3E800000#32, b2 := 0, a1 := 0xBF000000#32, a2 := 0 }
      x1 := fone, y1 := fhalf } fzero).1 = fhalf := by decide +kernel

/-- R176: -72 dB leaves -60 dB. -/
theorem test_gain_clamp : clampGain 0xC2900000#32 = itof (-60) := by decide +kernel

/-- An all-pass with delay 3 and feedback 0.5, unmodulated, after reset (R205). -/
def apExample : Allpass := { blankAllpass with core := { blankModDelay with dly := 3 }, fb := fhalf }

/-- R205: inputs 1, 0, 0, 0 give -0.5, 0, 0, 0.75. -/
theorem test_allpass :
    let s1 := mapStep default apExample fone
    let s2 := mapStep default s1.2 fzero
    let s3 := mapStep default s2.2 fzero
    [s1.1, s2.1, s3.1, (mapStep default s3.2 fzero).1] = [0xBF000000#32, fzero, fzero, 0x3F400000#32] := by
  decide +kernel

/-- R255 example 2, step 8: delay 10, amount 2.5, phase 0.25, sine 1.0: taps 12 and 13, gains 0.5 and 0.5. -/
theorem test_tapcalc : tapCalc { (default : Config.Params) with fsin := fun _ => fone } 10 0x40200000#32 0x3E800000#32 =
    { delayA := 12, delayB := 13, gainA := fhalf, gainB := fhalf } := by decide +kernel

/-- R196: an amount at or above the delay is clamped to the delay less 1: with sine -1 the total is 1. -/
theorem test_tapcalc_clamp :
    (tapCalc { (default : Config.Params) with fsin := fun _ => fnegOne } 10 0x41200000#32 0x3F400000#32).delayA = 1 := by
  decide +kernel

/-- R197: a tiny negative phase rounds to 1.0 and is replaced by `+0`. -/
theorem test_phase_guard : nextPhase fzero 0x80000001#32 = fzero := by decide +kernel

/-- R255 example 1: delay 2, no modulation: inputs 1, 2, 3, 4 give 0, 0, 1, 2. -/
theorem test_delay :
    let u := { blankModDelay with dly := 2, taps := { delayA := 2, delayB := 3, gainA := fone, gainB := fzero } }
    let s1 := mdlyStep default u (itof 1)
    let s2 := mdlyStep default s1.2 (itof 2)
    let s3 := mdlyStep default s2.2 (itof 3)
    [s1.1, s2.1, s3.1, (mdlyStep default s3.2 (itof 4)).1] = [fzero, fzero, itof 1, itof 2] := by decide +kernel

/-- R225: delay 1000 and a power of ten of 0x404A62C2 give a stage delay of 316. -/
theorem test_stage_delay :
    stageDelay { (default : Config.Params) with fpow10 := fun _ => 0x404A62C2#32 } 1000 fhalf = 316 := by decide +kernel

/-- R222: the factor at 0, 0.5 and 1. -/
theorem test_stage_factor : stageFactor fzero = 0x3F59999A#32 ∧ stageFactor fhalf = fone ∧
    stageFactor fone = 0x3F933334#32 := by decide +kernel

/-- R279: one tap, length 4, decay 0, gain 0.5 at 0.5: the third output is 0x3F87C3B7. -/
theorem test_multitap :
    let u := { blankMultitap with len := 4, tapGain := [(0, fhalf)], tapPos := [(0, fhalf)] }
    let s1 := mtapStep default u fone
    let s2 := mtapStep default s1.2 fzero
    [s1.1, s2.1, (mtapStep default s2.2 fzero).1] = [fzero, fzero, 0x3F87C3B7#32] := by decide +kernel

/-- R297 with blocks of four samples in place of 128: an impulse comes out one sample later, its feedback of 0.5 in the next
block, five samples after the impulse's output. -/
theorem test_line :
    let l := { blankLine with
      fb := fhalf
      delay := { blankModDelay with taps := { delayA := 1, delayB := 2, gainA := fone, gainB := fzero } } }
    let b1 := dlineProc default l [fone, fzero, fzero, fzero]
    b1.1 = [fzero, fone, fzero, fzero] ∧ b1.2.qCount = 4 ∧
    (dlineProc default b1.2 [fzero, fzero, fzero, fzero]).1 = [fzero, fzero, fhalf, fzero] := by decide +kernel

/-- 48_channel.md R312: the largest magnitude flushed and the next one. -/
theorem test_flush : flush 0x3804A2B2#32 = fzero ∧ flush 0xB804A2B2#32 = fzero ∧ flush 0x3804A2B3#32 = 0x3804A2B3#32 ∧
    flush 0x7F800000#32 = 0x7F800000#32 := by decide +kernel

/-- R315: delay 4800 and a decay time of 96000 samples: -0.15 goes into the power of ten. -/
theorem test_line_fb : lineFb { (default : Config.Params) with fpow10 := id } 4800 0x47BB8000#32 = 0xBE19999A#32 := by
  decide +kernel

/-- 49_engine.md R348: at 0.5 the right channel has 0.25, the left 0.75. -/
theorem test_xseed : xseedOf .R fhalf = 0x3E800000#32 ∧ xseedOf .L fhalf = 0x3F400000#32 := by decide +kernel

/-- R351: -5.0 is stored as 0, 5.0 as 1, a NaN as `+0`. -/
theorem test_clamp01 : clamp01 0xC0A00000#32 = fzero ∧ clamp01 0x40A00000#32 = fone ∧ clamp01 0x7FC00000#32 = fzero := by
  decide +kernel

/-- 00_scope.md R12: `ffloor(-0) = +0`, and a floor goes down. -/
theorem test_ffloor : ffloor 0x80000000#32 = fzero ∧ ffloor 0xBF000000#32 = fnegOne := by decide +kernel

/-- 00_scope.md R11: a sum of a value and its negation is `+0`; the largest value doubled is infinite. -/
theorem test_sums : fadd fone fnegOne = fzero ∧ fadd 0x7F7FFFFF#32 0x7F7FFFFF#32 = 0x7F800000#32 ∧
    fadd 0x80000000#32 0x80000000#32 = 0x80000000#32 := by decide +kernel

/-- 60_exceptions.md R420: a division by zero gives an infinity. -/
theorem test_div_zero : fdiv fnegOne fzero = 0xFF800000#32 := by decide +kernel

/-- A tie rounds to even: 2^24 + 1 and 2^24 + 3. -/
theorem test_ties : itof 16777217 = itof 16777216 ∧ itof 16777219 = itof 16777220 := by decide +kernel

/-! ## Steps on a small state -/

/-- A delay of one sample. -/
def plainDelay : ModDelay := { blankModDelay with taps := { delayA := 1, delayB := 2, gainA := fone, gainB := fzero } }

/-- A diffuser of 12 such stages. -/
def plainDiffuser : Diffuser := { blankDiffuser with stage := vecOf12 fun _ => { blankAllpass with core := plainDelay } }

/-- A line of such delays, everything else as before `ApplyConfig`. -/
def plainLine : DelayLine := { blankLine with delay := plainDelay, df := plainDiffuser }

/-- A channel of such delays and lines. -/
def plainChannel : Channel := { blankChannel with pre := plainDelay, ed := plainDiffuser, line := vecOf12 fun _ => plainLine }

/-- A small state: legal, with no free value in it; the next event is `e`. -/
def plain (e : List Event) : State where
  sys := resetSys
  resA := 0
  resC := 0
  eng := resetEngine
  rng := resetRng
  rbuf := resetRbuf
  io := resetIo
  left := plainChannel
  right := plainChannel
  port := .A
  word := 0
  queue := e

/-- The state a step answers. -/
def after (o : Host.Outcome State Fault Refusal) : State :=
  match o with
  | .next s => s
  | .fault _ => plain []
  | .refused _ => plain []

/-- R382, R402: the illegal word sets the sticky bit and the code and is recorded. -/
theorem test_illegal_word :
    (after (step (plain [.command .C 0xFF00000000000000#64]))).sys =
      { status := 1, faultCode := 1, faultCmd := 0xFF00000000000000#64 } := by decide +kernel

/-- R381: `C: RESET` raises `ILLPORT`. -/
theorem test_port_c_reset :
    (after (step (plain [.command .C 0x0100000000000000#64]))).sys.faultCode = 2 := by decide +kernel

/-- R228: a rate of 0.75 raises `CFGERR`. -/
theorem test_diff_rate :
    (after (step (plain [.command .A 0x5440A0003F400000#64]))).sys =
      { status := 8, faultCode := 4, faultCmd := 0x5440A0003F400000#64 } := by decide +kernel

/-- R351: `C: EN.SETP ENG, #2, 0.25` stores the value and sets `DIRTY`. -/
theorem test_set_param :
    let t := after (step (plain [.command .C 0xA00020023E800000#64]))
    t.eng.np[2] = 0x3E800000#32 ∧ t.eng.dirty = true ∧ t.sys.status = 0 := by decide +kernel

/-- R383: `IO.WR IO0, #0, 1.0`, the queue moves on. -/
theorem test_io_write :
    let t := after (step (plain [.command .A 0x0500A0003F800000#64, .resetInput]))
    readMem t (.io 0) 0 0 = some fone ∧ t.queue = [.resetInput] := by decide +kernel

/-- R385: `RDREG SYS, #0` on port C writes `RES[C]` alone. -/
theorem test_read_status :
    let t := after (step { plain [.command .C 0x0200000000000000#64] with
      sys := { status := 9, faultCode := 4, faultCmd := 0 }, resC := 7, resA := 5 })
    t.resC = 9 ∧ t.resA = 5 := by decide +kernel

/-- R199: `AP.SETDLY L.ED.S0, 3` writes one stage, the next one keeps its delay. -/
theorem test_stage_address :
    let t := after (step (plain [.command .A 0x4040B00000000003#64]))
    t.left.ed.stage[0].core.dly = 3 ∧ t.left.ed.stage[1].core.dly = 1 ∧ t.right.ed.stage[0].core.dly = 1 := by
  refine ⟨?_, ?_, ?_⟩ <;> rfl

/-- `withFetchWord` puts the command where the next step takes it. -/
theorem test_fetch : (after (step ((plain []).withFetchWord 64 0xA00020023E800000))).eng.np[2] = 0x3E800000#32 := by
  decide +kernel

/-! ## The small states of the witnesses are legal, in range, in line with their registers, silent -/

theorem plainDelay_legal (cap : Nat) (h : 3 ≤ cap) : plainDelay.Legal cap where
  dly_ge := by decide
  dly_le := by simp [plainDelay, blankModDelay]; omega
  phase_ge := by decide
  phase_lt := by decide
  cnt_le := by decide
  delayB_eq := rfl
  widx_lt := by simp [plainDelay, blankModDelay]; omega
  buf_wf := rfl
  buf_within := rfl

theorem plainDelay_legalDelay : plainDelay.LegalDelay :=
  ⟨plainDelay_legal _ (by decide), by decide +kernel, by decide⟩

theorem vec_const {α : Type} {P : α → Prop} {a : α} (h : P a) (k : Fin 12) : P (vecOf12 fun _ => a)[k] := by
  fin_cases k <;> exact h

theorem plainDiffuser_legal : plainDiffuser.Legal where
  stages := by decide
  dly := by decide
  fb := by decide
  modA := by decide +kernel
  modR := by decide
  xseed := by decide
  seedV_wf := rfl
  seedV_within := rfl
  stage := vec_const ⟨plainDelay_legal _ (by decide), by decide⟩

theorem blankShelf_legal : blankShelf.Legal := ⟨by decide, by decide⟩
theorem blankOnePole_legal : blankOnePole.Legal := ⟨by decide⟩
theorem blankMultitap_legal : blankMultitap.Legal := by
  constructor <;> decide
theorem plainLine_queueOk : plainLine.QueueOk := by constructor <;> decide
theorem plainLine_legal : plainLine.Legal := ⟨plainLine_queueOk, rfl, rfl, plainDelay_legalDelay, plainDiffuser_legal,
  blankShelf_legal, blankShelf_legal, blankOnePole_legal⟩

theorem plainChannel_legal : plainChannel.Legal where
  inMix := by decide
  lines := by decide
  decayT := by decide
  dry := by decide
  early := by decide
  lineOut := by decide
  xseed := by decide
  hp := blankOnePole_legal
  lp := blankOnePole_legal
  pre := plainDelay_legalDelay
  mt := blankMultitap_legal
  ed := plainDiffuser_legal
  line := vec_const plainLine_legal

theorem plain_legal (e : List Event) : (plain e).Legal where
  status := show (resetSys.status).toNat < 64 by decide
  faultCode := show (resetSys.faultCode).toNat ≤ 6 by decide
  np := show ∀ k : Fin 10, inUnit resetEngine.np[k] = true by decide
  xHi := rfl
  xseed := show inUnit resetRbuf.xseed = true by decide
  count := Nat.zero_le _
  val_wf := rfl
  val_within := rfl
  io_wf := show ∀ b : Fin 4, Memory.wf resetIo[b] = true by decide
  io_within := show ∀ b : Fin 4, memWithin Config.block resetIo[b] = true by decide
  left := plainChannel_legal
  right := plainChannel_legal

theorem plainDiffuser_ranged : plainDiffuser.Ranged :=
  ⟨fun i => (by decide : inUnit memDefault = true), vec_const ⟨by decide +kernel, by decide, by decide⟩⟩

theorem plain_ranged (e : List Event) : (plain e).Ranged where
  ed := by rintro (_ | _) <;> exact plainDiffuser_ranged
  df := by rintro (_ | _) <;> exact vec_const (P := fun l : DelayLine => l.df.Ranged) plainDiffuser_ranged
  pre := by rintro (_ | _) <;> exact le_refl 1
  delay := by rintro (_ | _) <;> exact vec_const (P := fun l : DelayLine => 1 ≤ l.delay.taps.delayA) (le_refl 1)

theorem length_generate (cfg : Config.Params) (seed : Word) (n : Nat) : (generate cfg seed n).length = n := by
  have h : ∀ (n : Nat) (x : BitVec 64), (generateFrom cfg x n).length = n := by
    intro n
    induction n with
    | zero => intro x; rfl
    | succ n ih => intro x; simp [generateFrom, ih]
  exact h n _

theorem length_generateCross (cfg : Config.Params) (seed : Word) (c : F) (n : Nat) :
    (generateCross cfg seed c n).length = n := by simp [generateCross, length_generate]

theorem read_write {vs : List Word} {n : Nat} (h : vs.length = n) : memReadList (memWriteList [] 0 vs) 0 n = vs := by
  subst h
  exact memReadList_memWriteList (m := []) rfl 0 vs

theorem within_write {vs : List Word} {n : Nat} (h : vs.length = n) : memWithin n (memWriteList [] 0 vs) = true :=
  memWithin_memWriteList rfl (by omega)

theorem wf_write (vs : List Word) : Memory.wf (memWriteList [] 0 vs) = true := wf_memWriteList rfl 0 vs

theorem read_write_map (f : Nat → Word) (n i : Nat) (h : i < n) :
    memRead (memWriteList [] 0 ((List.range n).map f)) i = f i := by
  have h' := congrArg (·[i]?) (read_write (vs := (List.range n).map f) (n := n) (by simp))
  simpa [memReadList, h] using h'

/-- A list as a memory. -/
@[irreducible] def memOf (vs : List Word) : Mem := memWriteList [] 0 vs

theorem memOf_list {vs : List Word} {n : Nat} (h : vs.length = n) : memReadList (memOf vs) 0 n = vs := by
  unfold memOf; exact read_write h
theorem memOf_within {vs : List Word} {n : Nat} (h : vs.length = n) : memWithin n (memOf vs) = true := by
  unfold memOf; exact within_write h
theorem memOf_wf (vs : List Word) : Memory.wf (memOf vs) = true := by unfold memOf; exact wf_write vs
theorem memOf_map (f : Nat → Word) (n i : Nat) (h : i < n) : memRead (memOf ((List.range n).map f)) i = f i := by
  unfold memOf; exact read_write_map f n i h

/-- A diffuser in line with its registers, whatever the parameters are. -/
def liveDiffuser (cfg : Config.Params) : Diffuser :=
  { blankDiffuser with
    seedV := memOf (generateCross cfg 0 fzero Config.diffDraws)
    stage := vecOf12 fun _ => { blankAllpass with core := plainDelay.retap cfg } }

/-- A multitap in line with its registers. -/
def liveMultitap (cfg : Config.Params) : Multitap :=
  let v := memOf (generateCross cfg 0 fzero (3 * Config.maxTaps))
  { blankMultitap with
    seedV := v
    tapGain := memOf ((List.range Config.maxTaps).map fun i => tapGainOf cfg (memRead v (3 * i)) (memRead v (3 * i + 1)))
    tapPos := memOf ((List.range Config.maxTaps).map fun i => tapPosOf i (memRead v (3 * i + 2))) }

/-- A line in line with its registers. -/
def liveLine (cfg : Config.Params) : DelayLine :=
  { blankLine with
    delay := plainDelay.retap cfg, df := liveDiffuser cfg
    ls := blankShelf.setF cfg .low fzero, hs := blankShelf.setF cfg .high fzero
    damp := blankOnePole.setFc cfg fzero }

/-- A channel in line with its registers. -/
def liveChannel (cfg : Config.Params) : Channel :=
  { blankChannel with
    hp := blankOnePole.setFc cfg fzero, lp := blankOnePole.setFc cfg fzero
    pre := plainDelay.retap cfg, mt := liveMultitap cfg, ed := liveDiffuser cfg
    line := vecOf12 fun _ => liveLine cfg }

theorem liveDelay_legal (cfg : Config.Params) (cap : Nat) (h : 3 ≤ cap) : (plainDelay.retap cfg).Legal cap where
  dly_ge := (plainDelay_legal cap h).dly_ge
  dly_le := (plainDelay_legal cap h).dly_le
  phase_ge := (plainDelay_legal cap h).phase_ge
  phase_lt := (plainDelay_legal cap h).phase_lt
  cnt_le := (plainDelay_legal cap h).cnt_le
  delayB_eq := rfl
  widx_lt := (plainDelay_legal cap h).widx_lt
  buf_wf := rfl
  buf_within := rfl

theorem liveDelay_legalDelay (cfg : Config.Params) : (plainDelay.retap cfg).LegalDelay :=
  ⟨liveDelay_legal cfg _ (by decide), plainDelay_legalDelay.modA, plainDelay_legalDelay.modR⟩

theorem liveDiffuser_legal (cfg : Config.Params) : (liveDiffuser cfg).Legal where
  stages := plainDiffuser_legal.stages
  dly := plainDiffuser_legal.dly
  fb := plainDiffuser_legal.fb
  modA := plainDiffuser_legal.modA
  modR := plainDiffuser_legal.modR
  xseed := plainDiffuser_legal.xseed
  seedV_wf := memOf_wf _
  seedV_within := memOf_within (length_generateCross cfg 0 fzero _)
  stage := vec_const (P := Allpass.Legal) ⟨liveDelay_legal cfg _ (by decide), (rfl : isFinite fzero = true)⟩

theorem liveDiffuser_coherent (cfg : Config.Params) : (liveDiffuser cfg).Coherent cfg where
  seedV := memOf_list (length_generateCross cfg 0 fzero _)
  stage := vec_const (P := fun a : Allpass => a.core.Coherent cfg) rfl

theorem liveMultitap_coherent (cfg : Config.Params) : (liveMultitap cfg).Coherent cfg where
  seedV := memOf_list (length_generateCross cfg 0 fzero _)
  tapGain := fun i hi => memOf_map _ _ i hi
  tapPos := fun i hi => memOf_map _ _ i hi

theorem liveMultitap_legal (cfg : Config.Params) : (liveMultitap cfg).Legal where
  taps := blankMultitap_legal.taps
  len := blankMultitap_legal.len
  decay := blankMultitap_legal.decay
  xseed := blankMultitap_legal.xseed
  widx := blankMultitap_legal.widx
  buf_wf := rfl
  buf_within := rfl
  seedV_wf := memOf_wf _
  seedV_within := memOf_within (length_generateCross cfg 0 fzero _)
  tapGain_wf := memOf_wf _
  tapGain_within := memOf_within (by simp)
  tapPos_wf := memOf_wf _
  tapPos_within := memOf_within (by simp)

theorem liveLine_coherent (cfg : Config.Params) : (liveLine cfg).Coherent cfg :=
  ⟨rfl, liveDiffuser_coherent cfg, rfl, rfl, rfl⟩

theorem liveLine_legal (cfg : Config.Params) : (liveLine cfg).Legal :=
  ⟨⟨plainLine_queueOk.rd, plainLine_queueOk.count, plainLine_queueOk.wr⟩, rfl, rfl, liveDelay_legalDelay cfg,
    liveDiffuser_legal cfg, ⟨blankShelf_legal.freq, blankShelf_legal.gain⟩, ⟨blankShelf_legal.freq, blankShelf_legal.gain⟩,
    ⟨blankOnePole_legal.fc⟩⟩

theorem liveChannel_coherent (cfg : Config.Params) : (liveChannel cfg).Coherent cfg :=
  ⟨rfl, rfl, rfl, liveMultitap_coherent cfg, liveDiffuser_coherent cfg, vec_const (liveLine_coherent cfg)⟩

theorem liveChannel_legal (cfg : Config.Params) : (liveChannel cfg).Legal :=
  { plainChannel_legal with
    hp := ⟨blankOnePole_legal.fc⟩, lp := ⟨blankOnePole_legal.fc⟩, pre := liveDelay_legalDelay cfg
    mt := liveMultitap_legal cfg, ed := liveDiffuser_legal cfg, line := vec_const (liveLine_legal cfg) }

/-- Parameters for the silence law: every random value is 0, every gain 1. -/
def quiet : Config.Params :=
  { (default : Config.Params) with lcgA := 0, lcgC := 0, fexp := fun _ => fone, fpow10 := fun _ => fone }

theorem nil_unit (i : Nat) : inUnit (memRead [] i) = true := by rw [memRead_nil]; decide

theorem quiet_seedV : (liveDiffuser quiet).seedV = [] := by decide +kernel
theorem quiet_ranged : (liveDiffuser quiet).Ranged where
  seedV := by rw [quiet_seedV]; exact nil_unit
  stage := vec_const ⟨by decide +kernel, by decide, by decide +kernel⟩

theorem quiet_draws : memOf (generateCross quiet 0 fzero (3 * Config.maxTaps)) = [] := by decide +kernel

theorem quiet_taps : (liveMultitap quiet).Tame where
  gain i hi := by
    have h := memOf_map (fun _ => tapGainOf quiet 0 0) Config.maxTaps i hi
    simp only [liveMultitap, quiet_draws, memRead_nil]
    exact (congrArg isFinite h).trans (by decide +kernel)
  pos i hi := by
    have h := memOf_map (fun i => tapPosOf i 0) Config.maxTaps i hi
    have h' : ∀ i : Nat, i < Config.maxTaps → inRange (itof i) (itof (i + 1 : Nat)) (tapPosOf i 0) = true := by
      decide +kernel
    simp only [liveMultitap, quiet_draws, memRead_nil]
    exact (congrArg (inRange _ _) h).trans (h' i hi)

theorem quiet_tame : (liveChannel quiet).Tame quiet where
  legal := liveChannel_legal quiet
  coherent := liveChannel_coherent quiet
  ed := quiet_ranged
  df := vec_const (P := fun l : DelayLine => l.df.Ranged) quiet_ranged
  mt := quiet_taps
  fb := vec_const (P := fun l : DelayLine => isFinite l.fb = true) (by decide)
  ls := vec_const (P := fun l : DelayLine => l.ls.Tame) (by unfold Shelf.Tame; decide)
  hs := vec_const (P := fun l : DelayLine => l.hs.Tame) (by unfold Shelf.Tame; decide)

theorem nil_silent : silentMem [] := fun _ => rfl
theorem liveLine_silent (cfg : Config.Params) : (liveLine cfg).Silent :=
  ⟨nil_silent, vec_const (P := fun a : Allpass => silentMem a.core.buf) nil_silent, ⟨rfl, rfl, rfl, rfl⟩, ⟨rfl, rfl, rfl, rfl⟩, rfl, nil_silent⟩
theorem liveChannel_silent (cfg : Config.Params) : (liveChannel cfg).Silent :=
  ⟨rfl, rfl, nil_silent, nil_silent, vec_const (P := fun a : Allpass => silentMem a.core.buf) nil_silent, vec_const (liveLine_silent cfg)⟩

/-! ## Witnesses: for each statement a concrete case of its hypotheses, each clause at a boundary of its range -/

/-- `step`, `exec` and the rest answer a next state. -/
def goesOn (o : Host.Outcome State Fault Refusal) : Prop := ∃ t, o = .next t

theorem witness_encodeOfDecode : decode 0x214040003F800000#64 = .ok (.lpStep 0x4040#16 fone) := by decide

theorem witness_unitAddressBijection : unitOf 0xB6A0#16 = some (.lp1 (.damp .R 11)) := by decide

theorem witness_unusedFieldsIllegal :
    (opcodeField 0x0000000000000001#64 = Instr.nop.opcode ∧
      0x0000000000000001#64 &&& Instr.nop.format.mask ≠ Instr.nop.opcode.setWidth 64 <<< 56) ∧
    (opcodeField 0x214040013F800000#64 = (Instr.lpStep 0 0).opcode ∧
      0x214040013F800000#64 &&& (Instr.lpStep 0 0).format.mask ≠ (Instr.lpStep 0 0).opcode.setWidth 64 <<< 56) ∧
    (plain [.command .A 0x0000000000000001#64]).queue = .command .A 0x0000000000000001#64 :: [] :=
  ⟨by decide, by decide, rfl⟩

/-- The first and last opcodes of the ranges of R108; the neighbours of each range are commands. -/
theorem witness_illegalOpcodes :
    (∀ op ∈ [0x07, 0x0F, 0x16, 0x1F, 0x23, 0x27, 0x2F, 0x34, 0x3F, 0x48, 0x4F, 0x5B, 0x5F, 0x65, 0x6F, 0x77, 0x7F, 0x84,
        0x8F, 0x9A, 0x9F, 0xA5, 0xAF, 0xB4, 0xFF],
      decode (BitVec.ofNat 64 (op * 2 ^ 56)) = .error (.unknownOpcode (BitVec.ofNat 8 op))) ∧
    (∀ op ∈ [0x00, 0x06, 0x10, 0x15, 0x20, 0x22, 0x24, 0x26, 0x30, 0x33, 0x40, 0x47, 0x50, 0x5A, 0x60, 0x64, 0x70, 0x76,
        0x80, 0x83, 0x90, 0x99, 0xA0, 0xA4, 0xB0, 0xB3],
      decode (BitVec.ofNat 64 (op * 2 ^ 56)) ≠ .error (.unknownOpcode (BitVec.ofNat 8 op))) ∧
    (plain [.command .C 0xFF00000000000000#64]).queue = .command .C 0xFF00000000000000#64 :: [] :=
  ⟨by decide, by decide, rfl⟩

theorem witness_stepRunsCommand :
    (plain [.command .A 0#64, .resetInput]).queue = .command .A 0#64 :: [.resetInput] ∧ decode 0#64 = .ok .nop ∧
    decode 0xFF00000000000000#64 = .error (.unknownOpcode 0xFF#8) ∧
    (plain [.resetInput]).queue = .resetInput :: [] ∧ (plain []).queue = [] :=
  ⟨rfl, by decide, by decide, rfl, rfl⟩

/-- One word for each check of R110, on the ports and values where the clauses meet, and words that pass them all. -/
theorem witness_decodeOrder :
    wordFault .C 0xFF00000000000000#64 = some .illOp ∧ wordFault .C 0x0100000000000001#64 = some .illOp ∧
    wordFault .C 0x0100000000000000#64 = some .illPort ∧ wordFault .C 0x21C000003F800000#64 = some .illPort ∧
    wordFault .A 0x21C000003F800000#64 = some .illUnit ∧ wordFault .A 0x4040200000000000#64 = some .illUnit ∧
    wordFault .A 0x4040B00000000000#64 = some .cfgErr ∧ wordFault .A 0x4040B00000004AFF#64 = some .cfgErr ∧
    wordFault .A 0x0500A0803F800000#64 = some .idxErr ∧ wordFault .C 0x0200000600000000#64 = some .idxErr ∧
    wordFault .C 0xA000200A3E800000#64 = some .keyErr ∧
    wordFault .A 0x4040B00000000001#64 = none ∧ wordFault .A 0x4040B00000004AFE#64 = none ∧
    wordFault .A 0x0500A07F3F800000#64 = none ∧ wordFault .C 0x0200000500000000#64 = none ∧
    wordFault .C 0xA00020093E800000#64 = none ∧
    wordFault .A 0x0100000000000000#64 = none ∧ decode 0x0100000000000000#64 = .ok .reset ∧
    wordFault .A 0x0400000000000000#64 = none ∧ decode 0x0400000000000000#64 = .ok .clrf ∧
    (plain [.command .C 0x0100000000000000#64]).queue = .command .C 0x0100000000000000#64 :: [] := by
  decide +kernel

theorem witness_faultEffect :
    (plain [.command .A 0x4040B00000000000#64, .resetInput]).queue =
      .command .A 0x4040B00000000000#64 :: [.resetInput] ∧
    wordFault .A 0x4040B00000000000#64 = some .cfgErr ∧ ¬ ((UnitRef.sys = .sys ∧ 4 ≤ 3)) := by decide +kernel

/-- A machine with the sticky bits 0 and 5 set. -/
def faulted (e : List Event) : State := { plain e with sys := { status := 33, faultCode := 1, faultCmd := 0 } }

theorem witness_statusSticky :
    (faulted []).sys.status.getLsbD 0 = true ∧ (faulted []).sys.status.getLsbD 5 = true ∧
    goesOn (step (faulted [.command .A 0#64])) ∧ goesOn (step (faulted [.resetInput])) ∧
    goesOn (step (faulted [.command .A 0x0400000000000000#64])) ∧
    goesOn (step (faulted [.command .A 0x0100000000000000#64])) ∧
    goesOn (step (faulted [.command .C 0x0400000000000000#64])) :=
  ⟨rfl, rfl, ⟨_, rfl⟩, ⟨_, rfl⟩, ⟨_, rfl⟩, ⟨_, rfl⟩, ⟨_, rfl⟩⟩

/-- The small state with port `C` the port of the command. -/
def onC : State := { plain [] with port := .C }

theorem witness_portCWrites :
    onC.port = .C ∧ goesOn (exec (.enSetP 0x0020#16 9#8 fone) onC) ∧ goesOn (exec (.enGetP 0x0020#16 10#8) onC) ∧
    goesOn (exec (.rdreg 0x0000#16 5#8) onC) ∧ goesOn (exec (.lpStep 0x4040#16 fone) onC) :=
  ⟨rfl, ⟨_, rfl⟩, ⟨_, rfl⟩, ⟨_, rfl⟩, ⟨_, rfl⟩⟩

/-- A command on the fault registers' unit at register 4, and one that raises a fault. -/
theorem witness_faultsInvisible :
    (∀ u sub, Instr.rdreg 0x0000#16 4#8 = .rdreg u sub → unitOf u = some .sys → 4 ≤ sub.toNat) ∧
    goesOn (exec (.rdreg 0x0000#16 4#8) (plain [])) ∧
    (∀ u sub, Instr.apSetDly 0x40B0#16 0#32 = .rdreg u sub → unitOf u = some .sys → 4 ≤ sub.toNat) ∧
    goesOn (exec (.apSetDly 0x40B0#16 0#32) (plain [])) := by
  refine ⟨?_, ⟨_, rfl⟩, ?_, ⟨_, rfl⟩⟩
  · rintro u sub h -
    cases h
    decide
  · rintro u sub h
    cases h

theorem witness_systemCommands : (plain []).port = .A ∧ onC.port = .C := ⟨rfl, rfl⟩

/-- Last sample words and last cleared registers. -/
theorem witness_resetValues :
    767 < Config.rbCap ∧ 127 < Config.block ∧ (UnitRef.map ⟨.early .L, 11⟩).cls.sampleMem 0 = true ∧
    19199 < (UnitRef.map ⟨.early .L, 11⟩).cls.memWords 0 ∧ 383999 < (UnitRef.mdly (.pre .R)).cls.memWords 0 ∧
    255 < (UnitRef.dline .R 11).cls.memWords 0 ∧ (UnitRef.dline .R 11).cls.clearedReg 4 = true ∧
    (UnitRef.hp1 .L).cls.clearedReg 3 = true := by decide +kernel

theorem witness_readRegister :
    unitOf 0x0000#16 = some .sys ∧ UnitRef.sys.cls.hasRegs = true ∧ UnitRef.sys.cls.hasReg 5 = true ∧
    UnitRef.sys.cls.hasReg 6 = false ∧ unitOf 0x4060#16 = some (.mdly (.pre .L)) ∧
    (UnitRef.mdly (.pre .L)).cls.hasRegs = true ∧ (UnitRef.mdly (.pre .L)).cls.hasReg 0 = true ∧
    (UnitRef.mdly (.pre .L)).cls.hasReg 11 = true ∧ (UnitRef.mdly (.pre .L)).cls.hasReg 12 = false ∧
    (∀ r : UnitRef, unitOf 0x0080#16 = some r → r.cls.hasRegs = false) ∧ unitOf 0xC000#16 = none :=
  ⟨by decide, by decide, by decide, by decide, by decide, by decide, by decide, by decide, by decide,
    fun _ h => by cases h; decide, by decide⟩

theorem witness_readMemory :
    (plain []).port = .A ∧ unitOf 0x0060#16 = some .rbuf ∧ UnitRef.rbuf.cls.hasMems = true ∧
    767 < UnitRef.rbuf.cls.memWords 0 ∧ ¬ 768 < UnitRef.rbuf.cls.memWords 0 ∧ ¬ 0 < UnitRef.rbuf.cls.memWords 1 ∧
    (∀ r : UnitRef, unitOf 0x4000#16 = some r → r.cls.hasMems = false) ∧ onC.port = .C :=
  ⟨rfl, by decide, by decide, by decide, by decide, by decide, fun _ h => by cases h; decide, rfl⟩

theorem witness_blockMemory :
    (plain []).port = .A ∧ unitOf 0x00A3#16 = some (.io 3) ∧ Memory.wf (plain []).io[(3 : Fin 4)] = true ∧
    (127#8).toNat < 128 ∧ 128 ≤ (128#8).toNat ∧ onC.port = .C := ⟨rfl, by decide, rfl, by decide, by decide, rfl⟩

theorem witness_generatorCommands : (plain []).port = .A ∧ unitOf 0x0040#16 = some .rng := ⟨rfl, by decide⟩

theorem witness_randomBufferCommands :
    (plain []).port = .A ∧ unitOf 0x0060#16 = some .rbuf ∧ Memory.wf (plain []).rbuf.val = true ∧
    (fle fzero 0x80000000#32 = true ∧ fle 0x80000000#32 fone = true) ∧ (fle fzero fone = true ∧ fle fone fone = true) ∧
    ¬ (fle fzero 0x3F800001#32 = true ∧ fle 0x3F800001#32 fone = true) ∧
    ¬ (fle fzero 0x7FC00000#32 = true ∧ fle 0x7FC00000#32 fone = true) ∧
    (0#32).toNat ≤ 768 ∧ (768#32).toNat ≤ 768 ∧ 768 < (769#32).toNat := ⟨rfl, by decide, rfl, by decide⟩

theorem witness_generatorSequence :
    (0x100000000#64).toNat % 2 ^ 32 = (0#64).toNat % 2 ^ 32 ∧ 0 ≤ 1 ∧ (plain []).port = .A ∧
    unitOf 0x0040#16 = some .rng ∧ 1 ≤ 1 := ⟨by decide, by decide, rfl, by decide⟩

theorem witness_crossSeedEnds : 0 < 1 ∧ 767 < 768 := by decide

/-- A tie between two patterns, the first value that rounds to infinity, sums that are zero and not, every kind of root. -/
theorem witness_roundNearest :
    0 < 1 ∧ (magBits (fadd 0x4B800000#32 fone) < infBits ∧ 0x4B800001 < infBits ∧
      0x4B800001 ≠ magBits (fadd 0x4B800000#32 fone)) ∧
    (2 ^ 25 - 1) * 2 ^ 252 * 1 ≤ (2 ^ 25 - 1) * 2 ^ 252 ∧
    (isFinite 0x4B800000#32 = true ∧ isFinite fone = true ∧ isFinite 0x80000000#32 = true ∧ isFinite 0xBF800000#32 = true) ∧
    toUnits 0x4B800000#32 + toUnits fone ≠ 0 ∧ toUnits 0x4B800000#32 - toUnits fone ≠ 0 ∧
    toUnits 0x80000000#32 + toUnits 0x80000000#32 = 0 ∧ toUnits fone + toUnits 0xBF800000#32 = 0 ∧
    toUnits 0x80000000#32 - toUnits fzero = 0 ∧ toUnits fone - toUnits fone = 0 ∧ isZero 0xBF800000#32 = false ∧
    (-1 : Int) ≠ 0 ∧ (isZero 0x80000000#32 = true) ∧ (isZero 0xBF800000#32 = false ∧ signBit 0xBF800000#32 = true) ∧
    (isZero 0x00000001#32 = false ∧ signBit 0x00000001#32 = false) ∧
    (0x1A3504F2 < infBits ∧ magUnits 0x1A3504F2#32 < magUnits (fsqrt 0x00000001#32)) ∧
    (0x1A3504F4 < infBits ∧ magUnits (fsqrt 0x00000001#32) < magUnits 0x1A3504F4#32) := by
  decide +kernel

theorem witness_onePoleCommands :
    (plain []).port = .A ∧ unitOf 0x4040#16 = some (.lp1 (.chan .L)) ∧ unitOf 0x4020#16 = some (.hp1 .L) ∧
    isFinite 0x7F7FFFFF#32 = true ∧ isFinite 0x7F800000#32 = false := ⟨rfl, by decide⟩

theorem flt_trans_zero {e : F} (h : flt fzero e = true) : flt fnegOne e = true := by
  simp only [flt, Bool.and_eq_true, decide_eq_true_eq] at h ⊢
  have h1 : orderKey fzero = 0 := by decide
  have h2 : orderKey fnegOne < 0 := by decide
  have h3 : (!isNaN fnegOne) = true := by decide
  exact ⟨⟨h3, h.1.2⟩, by omega⟩

/-- A value below every positive finite one: a state below the epsilons, whatever they are. -/
theorem below_epsilon (e : F) : flt fnegOne (positiveFinite e) = true := by
  unfold positiveFinite
  split
  · rename_i h
    exact flt_trans_zero (Bool.and_eq_true _ _ ▸ h).1
  · decide

/-- The small state with the histories of both filters of `L` at -1. -/
def rested : State := { plain [] with left := { plainChannel with hp := halfPole fnegOne, lp := halfPole fnegOne } }

theorem witness_silenceLaw :
    rested.port = .A ∧ feq fzero fzero = true ∧ (∀ x, x ∈ [fzero, 0x80000000#32] → feq x fzero = true) ∧
    unitOf 0x4040#16 = some (.lp1 (.chan .L)) ∧ flt (rested.lp1 (.chan .L)).z (opfEpsLp Config.chip) = true ∧
    unitOf 0x4020#16 = some (.hp1 .L) ∧ flt (rested.hp1 .L).z (opfEpsHp Config.chip) = true :=
  ⟨rfl, by decide, List.forall_mem_cons.2 ⟨by decide, List.forall_mem_singleton.2 (by decide)⟩,
    by decide, below_epsilon _, by decide, below_epsilon _⟩

theorem witness_shelfCommands :
    (plain []).port = .A ∧ unitOf 0x6060#16 = some (.shelf ⟨.L, 0, .low⟩) ∧ unitOf 0x6080#16 = some (.shelf ⟨.L, 0, .high⟩) ∧
    isFinite 0x7F7FFFFF#32 = true ∧ isFinite 0x7F800000#32 = false ∧ isNaN 0x7F800000#32 = false ∧
    isNaN 0x7F800001#32 = true := ⟨rfl, by decide⟩

theorem witness_allpassSettings :
    (plain []).port = .A ∧ unitOf 0x40B0#16 = some (.map ⟨.early .L, 0⟩) ∧
    (1 ≤ (1#32).toNat ∧ (1#32).toNat ≤ 19198) ∧ (1 ≤ (19198#32).toNat ∧ (19198#32).toNat ≤ 19198) ∧
    ¬ (1 ≤ (0#32).toNat ∧ (0#32).toNat ≤ 19198) ∧ ¬ (1 ≤ (19199#32).toNat ∧ (19199#32).toNat ≤ 19198) ∧
    isFinite fzero = true ∧ isFinite 0x7F800000#32 = false ∧
    (fle fzero 0x46960000#32 = true ∧ fle 0x46960000#32 (itof 19200) = true) ∧
    ¬ (fle fzero 0x46960001#32 = true ∧ fle 0x46960001#32 (itof 19200) = true) ∧
    (fle fnegOne fnegOne = true ∧ fle fnegOne fone = true) ∧
    ¬ (fle fnegOne 0xBF800001#32 = true ∧ fle 0xBF800001#32 fone = true) ∧
    (1#32).toNat ≤ 1 ∧ 1 < (2#32).toNat := ⟨rfl, by decide +kernel⟩

/-- Both branches of the modulated mode: `CNT` 7 and 8. -/
theorem witness_allpassStep :
    (plain []).port = .A ∧ unitOf 0x40B0#16 = some (.map ⟨.early .L, 0⟩) ∧
    Memory.wf ((plain []).map ⟨.early .L, 0⟩).core.buf = true ∧ flagModEn 2#2 = true ∧ flagModEn 1#2 = false ∧
    8 ≤ 8 ∧ ¬ 8 ≤ 7 := ⟨rfl, by decide, rfl, by decide⟩

theorem witness_passthrough :
    (plain []).port = .A ∧ unitOf 0x40B0#16 = some (.map ⟨.early .L, 0⟩) ∧
    isZero ((plain []).map ⟨.early .L, 0⟩).fb = true ∧ Memory.wf ((plain []).map ⟨.early .L, 0⟩).core.buf = true ∧
    (isFinite fzero = true ∧ isFinite 0x7F7FFFFF#32 = true) ∧
    ¬ (isFinite fzero = true ∧ isFinite 0x7F800000#32 = true) :=
  ⟨rfl, by decide, rfl, rfl, by decide⟩

theorem witness_circularBuffer :
    Memory.wf plainDelay.buf = true ∧ plainDelay.widx < Config.dlCap ∧ 1 ≤ 3 ∧ 3 ≤ [fone, fone, fone].length ∧
    3 ≤ Config.dlCap := by decide

theorem witness_modulationPeriod :
    plainDelay.cnt ≤ 8 ∧ (List.replicate 8 fone).length ≤ 8 - plainDelay.cnt ∧
    (List.replicate 9 fone).length = 9 - plainDelay.cnt ∧ ({ plainDelay with cnt := 8 } : ModDelay).cnt ≤ 8 ∧
    ([] : List F).length ≤ 8 - ({ plainDelay with cnt := 8 } : ModDelay).cnt ∧
    [fone].length = 9 - ({ plainDelay with cnt := 8 } : ModDelay).cnt := by decide

theorem witness_tapRanges :
    delayOk Config.dlCap 1 = true ∧ delayOk Config.dlCap 383998 = true ∧ modAOk Config.dlCap fzero = true ∧
    modAOk Config.dlCap (itof 384000) = true := by decide +kernel

theorem witness_tapBoundOfR208 :
    (∀ v, isFinite v = true → fle fnegOne ((default : Config.Params).fsin v) = true ∧
      fle ((default : Config.Params).fsin v) fone = true) ∧ (default : Config.Params).fsin fzero = fzero ∧
    delayOk Config.apCap 19198 = true ∧ modAOk Config.apCap fzero = true ∧ fle fzero fzero = true ∧
    flt fzero fone = true := by
  refine ⟨fun v _ => ⟨?_, ?_⟩, rfl, ?_⟩
  · exact (by decide : fle fnegOne 0#32 = true)
  · exact (by decide : fle 0#32 fone = true)
  · decide +kernel

theorem witness_diffuserSettings :
    (plain []).port = .A ∧ unitOf 0x40A0#16 = some (.diff (.early .L)) ∧ (12#32).toNat ≤ 12 ∧ 12 < (13#32).toNat ∧
    isFinite fzero = true ∧ isFinite 0x7F800000#32 = false ∧ (1#32).toNat ≤ 1 ∧ 1 < (2#32).toNat := ⟨rfl, by decide⟩

theorem witness_diffuserDerivation :
    (plain []).port = .A ∧ unitOf 0x40A0#16 = some (.diff (.early .L)) ∧
    Memory.wf ((plain []).diff (.early .L)).seedV = true ∧
    (1 ≤ (19198#32).toNat ∧ (19198#32).toNat ≤ 19198) ∧ ¬ (1 ≤ (0#32).toNat ∧ (0#32).toNat ≤ 19198) ∧
    (fle fzero 0x46160000#32 = true ∧ fle 0x46160000#32 (itof 9600) = true) ∧
    ¬ (fle fzero 0x46160001#32 = true ∧ fle 0x46160001#32 (itof 9600) = true) ∧
    (fle 0xBF000000#32 0xBF000000#32 = true ∧ fle 0xBF000000#32 0x3F000000#32 = true) ∧
    ¬ (fle 0xBF000000#32 0xBF000001#32 = true ∧ fle 0xBF000001#32 0x3F000000#32 = true) ∧
    (fle fzero fone = true ∧ fle fone fone = true) ∧
    ¬ (fle fzero 0x3F800001#32 = true ∧ fle 0x3F800001#32 fone = true) := ⟨rfl, by decide, rfl, by decide +kernel⟩

/-- No stage in use, and 12 of them: the clauses meet at `k = STAGES`. -/
theorem witness_diffuserStep :
    (plain []).port = .A ∧ unitOf 0x40A0#16 = some (.diff (.early .L)) ∧ ((plain []).diff (.early .L)).stages = 0 ∧
    Memory.wf ((plain []).diff (.early .L)).stage[(11 : Fin 12)].core.buf = true ∧
    (11 : Fin 12).val < (plainDiffuser.setStages 12).stages ∧ (plainDiffuser.setStages 11).stages ≤ (11 : Fin 12).val :=
  ⟨rfl, by decide, rfl, rfl, by decide⟩

theorem witness_delayCommands :
    (plain []).port = .A ∧ unitOf 0x4060#16 = some (.mdly (.pre .L)) ∧
    (1 ≤ (383998#32).toNat ∧ (383998#32).toNat ≤ 383998) ∧ ¬ (1 ≤ (383999#32).toNat ∧ (383999#32).toNat ≤ 383998) ∧
    ¬ (1 ≤ (0#32).toNat ∧ (0#32).toNat ≤ 383998) ∧
    (fle fzero (itof 384000) = true ∧ fle (itof 384000) (itof 384000) = true) ∧
    ¬ (fle fzero (itof 384001) = true ∧ fle (itof 384001) (itof 384000) = true) ∧
    (fle fnegOne fone = true ∧ fle fone fone = true) ∧
    ¬ (fle fnegOne 0x3F800001#32 = true ∧ fle 0x3F800001#32 fone = true) ∧
    Memory.wf ((plain []).mdly (.pre .L)).buf = true := ⟨rfl, by decide +kernel⟩

theorem witness_multitapSettings :
    (plain []).port = .A ∧ unitOf 0x4080#16 = some (.mtap .L) ∧ Memory.wf ((plain []).mtap .L).seedV = true ∧
    Memory.wf ((plain []).mtap .L).tapGain = true ∧ Memory.wf ((plain []).mtap .L).tapPos = true ∧
    (1 ≤ (256#32).toNat ∧ (256#32).toNat ≤ 256) ∧ ¬ (1 ≤ (257#32).toNat ∧ (257#32).toNat ≤ 256) ∧
    ¬ (1 ≤ (0#32).toNat ∧ (0#32).toNat ≤ 256) ∧ (1 ≤ (383999#32).toNat ∧ (383999#32).toNat ≤ 383999) ∧
    ¬ (1 ≤ (384000#32).toNat ∧ (384000#32).toNat ≤ 383999) ∧ (fle fzero fone = true ∧ fle fone fone = true) ∧
    ¬ (fle fzero 0x3F800001#32 = true ∧ fle 0x3F800001#32 fone = true) := ⟨rfl, by decide⟩

theorem witness_multitapStep :
    (plain []).port = .A ∧ unitOf 0x4080#16 = some (.mtap .L) ∧ Memory.wf ((plain []).mtap .L).buf = true :=
  ⟨rfl, by decide, rfl⟩

/-- The last tap of a full cluster at its last position. -/
theorem witness_multitapOffsets :
    tapsOk 256 = true ∧ lenOk 383999 = true ∧ 255 < 256 ∧
    inRange (itof (255 : Nat)) (itof (255 + 1 : Nat)) (itof 256) = true := by decide +kernel

theorem witness_lineAndChannelSettings :
    (plain []).port = .A ∧ unitOf 0x6000#16 = some (.dline .L 0) ∧ unitOf 0x8000#16 = some (.chan .R) ∧
    isFinite 0x7F7FFFFF#32 = true ∧ isFinite 0x7F800000#32 = false ∧ (31#32).toNat < 32 ∧ 32 ≤ (32#32).toNat ∧
    (15#32).toNat < 16 ∧ 16 ≤ (16#32).toNat ∧ (1 ≤ (12#32).toNat ∧ (12#32).toNat ≤ 12) ∧
    (1 ≤ (1#32).toNat ∧ (1#32).toNat ≤ 12) ∧ ¬ (1 ≤ (0#32).toNat ∧ (0#32).toNat ≤ 12) ∧
    ¬ (1 ≤ (13#32).toNat ∧ (13#32).toNat ≤ 12) := ⟨rfl, by decide⟩

/-- The block lengths of `DL.PROC`, `CH.PROC` and `EN.PROC`. -/
theorem block_lengths :
    (1 ≤ (1#32).toNat ∧ (1#32).toNat ≤ 128) ∧ (1 ≤ (128#32).toNat ∧ (128#32).toNat ≤ 128) ∧
    ¬ (1 ≤ (0#32).toNat ∧ (0#32).toNat ≤ 128) ∧ ¬ (1 ≤ (129#32).toNat ∧ (129#32).toNat ≤ 128) := by decide

theorem witness_lineProc :
    (plain []).port = .A ∧ unitOf 0x7600#16 = some (.dline .L 11) ∧ Memory.wf (plain []).io[(2 : Fin 4)] = true ∧
    ((plain []).line .L 11).qCount ≤ 256 ∧ flagDiffEn ((plain []).line .L 11).flags = false ∧
    flagLsEn ((plain []).line .L 11).flags = false ∧ flagHsEn ((plain []).line .L 11).flags = false ∧
    flagCutEn ((plain []).line .L 11).flags = false := ⟨rfl, by decide, rfl, by decide, rfl, rfl, rfl, rfl⟩

/-- An empty queue, one value, a full queue whose oldest value is at the last place. -/
theorem witness_queueFifo :
    plainLine.QueueOk ∧ Memory.wf plainLine.q = true ∧ plainLine.contents = [] ∧
    ({ plainLine with qCount := 1, qWr := 1, q := [(0, fone)] } : DelayLine).contents = [fone] ∧
    ({ plainLine with qCount := 1, qWr := 1, q := [(0, fone)] } : DelayLine).QueueOk ∧
    ({ plainLine with qCount := 255, qRd := 255, qWr := 254 } : DelayLine).contents.length < 256 ∧
    ({ plainLine with qCount := 256, qRd := 255, qWr := 255 } : DelayLine).contents.length = 256 ∧
    ({ plainLine with qCount := 256, qRd := 255, qWr := 255 } : DelayLine).QueueOk :=
  ⟨plainLine_queueOk, rfl, rfl, rfl, by constructor <;> decide, by decide +kernel, by decide +kernel,
    by constructor <;> decide⟩

theorem witness_feedbackLatency :
    plainLine.QueueOk ∧ Memory.wf plainLine.q = true ∧ plainLine.qCount = 0 ∧
    (1 ≤ [fone].length ∧ [fone].length ≤ 128) ∧
    (1 ≤ (List.replicate 128 fone).length ∧ (List.replicate 128 fone).length ≤ 128) :=
  ⟨plainLine_queueOk, rfl, rfl, by decide, by simp⟩

theorem witness_channelSeedsDecay :
    (plain []).port = .A ∧ unitOf 0x4000#16 = some (.chan .L) ∧
    (flt fzero 0x00000001#32 = true ∧ isInf 0x00000001#32 = false) ∧
    (flt fzero 0x7F7FFFFF#32 = true ∧ isInf 0x7F7FFFFF#32 = false) ∧
    ¬ (flt fzero fzero = true ∧ isInf fzero = false) ∧
    ¬ (flt fzero 0x7F800000#32 = true ∧ isInf 0x7F800000#32 = false) ∧
    (fle fzero fone = true ∧ fle fone fone = true) ∧ ((plain []).chan .L).Legal ∧
    ¬ (fle fzero 0x3F800001#32 = true ∧ fle 0x3F800001#32 fone = true) :=
  ⟨rfl, by decide, by decide, by decide, by decide, by decide, by decide, plainChannel_legal, by decide⟩

/-- All flags clear; lines below `LINES` = 1 and from it up. -/
theorem witness_channelProc :
    (plain []).port = .A ∧ unitOf 0x8000#16 = some (.chan .R) ∧ Memory.wf (plain []).io[(2 : Fin 4)] = true ∧
    ((plain []).chan .R).flags = 0 ∧ (0 : Fin 12).val < ((plain []).chan .R).lines ∧
    ¬ (1 : Fin 12).val < ((plain []).chan .R).lines ∧ flagHpEn 1#4 = true ∧ flagLpEn 2#4 = true ∧ flagMtEn 4#4 = true ∧
    flagEdEn 8#4 = true := ⟨rfl, by decide, rfl, rfl, by decide, by decide, by decide⟩

theorem witness_clearCommands :
    (plain []).port = .A ∧ (plain []).Legal ∧ unitOf 0xA600#16 = some (.dline .R 3) ∧ unitOf 0x4000#16 = some (.chan .L) ∧
    unitOf 0x0020#16 = some .eng ∧ (UnitRef.dline .R 3).inLine .R 3 = true ∧
    (UnitRef.dline .R 3).cls.sampleMem 0 = true ∧ 255 < (UnitRef.dline .R 3).cls.memWords 0 ∧
    (UnitRef.dline .R 3).cls.clearedReg 4 = true := ⟨rfl, plain_legal _, by decide⟩

theorem witness_denormalFlush :
    (0x3804A2B2#32).toNat % 2 ^ 31 ≤ 0x3804A2B2 ∧ 0x3804A2B2 < (0xB804A2B3#32).toNat % 2 ^ 31 := by decide

theorem witness_silentChannel :
    (∀ v, isFinite v = true → fle v fzero = true → fle fzero (quiet.fexp v) = true ∧ fle (quiet.fexp v) fone = true) ∧
    (liveChannel quiet).Tame quiet ∧ (liveChannel quiet).Silent ∧
    (∀ a, a ∈ [fzero, 0x80000000#32] → isZero a = true) ∧ (∀ a, a ∈ [fzero, fzero] → a = fzero) ∧
    signBit (liveChannel quiet).dry = false :=
  ⟨fun _ _ _ => ⟨(by decide : fle fzero fone = true), (by decide : fle fone fone = true)⟩, quiet_tame,
    liveChannel_silent quiet, List.forall_mem_cons.2 ⟨by decide, List.forall_mem_singleton.2 (by decide)⟩,
    List.forall_mem_cons.2 ⟨rfl, List.forall_mem_singleton.2 (rfl)⟩, (rfl : signBit blankChannel.dry = false)⟩

theorem witness_parameterCommands :
    unitOf 0x0020#16 = some .eng ∧ (9#8).toNat = (9 : Fin 10).val ∧ (0#8).toNat = (0 : Fin 10).val ∧ 9 < (10#8).toNat := by
  decide

theorem witness_engineSync :
    (plain []).port = .A ∧ unitOf 0x0020#16 = some .eng ∧ (plain []).eng.dirty = false ∧
    ({ plain [] with eng := { resetEngine with dirty := true } } : State).eng.dirty = true ∧
    (∀ i : Fin 10, inUnit resetEngine.np[i] = true) ∧ isFinite Config.defaultInputMix = true ∧
    fmul 0x3F000000#32 (resetEngine.np.set 7 fone)[(7 : Fin 10)] =
      fsub 0x3F800000#32 (fmul 0x3F000000#32 (resetEngine.np.set 7 fone)[(7 : Fin 10)]) :=
  ⟨rfl, by decide, rfl, rfl, by decide, by decide, by decide +kernel⟩

theorem witness_applyConfigWritesAll : plainChannel.Legal := plainChannel_legal

theorem witness_engineProc :
    (plain []).port = .A ∧ unitOf 0x0020#16 = some .eng ∧ Memory.wf (plain []).io[(2 : Fin 4)] = true ∧
    Memory.wf (plain []).io[(3 : Fin 4)] = true := ⟨rfl, by decide, rfl, rfl⟩

/-- The small state with another right channel and another right input. -/
def otherRight : State := { plain [] with right := { plainChannel with dry := fone }, io := #v[[], [(0, fone)], [], []] }

/-- The small state with another left channel and another left input. -/
def otherLeft : State := { plain [] with left := { plainChannel with dry := fone }, io := #v[[(0, fone)], [], [], []] }

theorem enProc_goesOn {s : State} (h : s.port = .A) : goesOn (exec (.enProc 0x0020#16 128#32) s) :=
  ⟨s.engSync.procFrames 128, onEng_eq h (by decide) _⟩

theorem witness_sideIsolation :
    (plain []).port = otherRight.port ∧ (plain []).eng = otherRight.eng ∧
    goesOn (exec (.enProc 0x0020#16 128#32) (plain [])) ∧ goesOn (exec (.enProc 0x0020#16 128#32) otherRight) ∧
    (plain []).left = otherRight.left ∧ (plain []).io[(0 : Fin 4)] = otherRight.io[(0 : Fin 4)] ∧
    (plain []).io[(2 : Fin 4)] = otherRight.io[(2 : Fin 4)] ∧
    (plain []).port = otherLeft.port ∧ (plain []).eng = otherLeft.eng ∧
    goesOn (exec (.enProc 0x0020#16 128#32) otherLeft) ∧
    (plain []).right = otherLeft.right ∧ (plain []).io[(1 : Fin 4)] = otherLeft.io[(1 : Fin 4)] ∧
    (plain []).io[(3 : Fin 4)] = otherLeft.io[(3 : Fin 4)] :=
  ⟨rfl, rfl, enProc_goesOn rfl, enProc_goesOn rfl, rfl, rfl, rfl, rfl, rfl, enProc_goesOn rfl, rfl, rfl, rfl⟩

theorem witness_functionUnit : (plain []).port = .A ∧ unitOf 0x0080#16 = some .fn := ⟨rfl, by decide⟩

/-- `LP.STEP L.LP, 1.0` as the next event. -/
def lpEvent : List Event := [.command .A 0x214040003F800000#64]

theorem plain_fbLegal (e : List Event) : (plain e).FbLegal := by
  rintro (_ | _) <;> exact vec_const (P := fun l : DelayLine => l.FbLegal Config.chip) (.inl (by decide))

/-- A finite gain, and one that `fpow10` gives at 0. -/
theorem witness_legalKept :
    (plain lpEvent).Legal ∧ (plain lpEvent).FbLegal ∧ goesOn (step (plain lpEvent)) ∧
    Pow10Finite quiet ∧ plainLine.FbLegal quiet ∧ (plainLine.setFb fone).FbLegal quiet :=
  ⟨plain_legal _, plain_fbLegal _, ⟨_, rfl⟩, fun _ _ _ => ⟨(by decide : isFinite fone = true), (by decide : fle fzero fone = true)⟩,
    .inl (by decide), .inr ⟨fzero, by decide, rfl⟩⟩

theorem witness_rangedKept :
    (plain lpEvent).Legal ∧ (plain lpEvent).Ranged ∧ goesOn (step (plain lpEvent)) :=
  ⟨plain_legal _, plain_ranged _, ⟨_, rfl⟩⟩

/-- The small state with both channels in line with their registers. -/
def live (e : List Event) : State :=
  { plain e with left := liveChannel Config.chip, right := liveChannel Config.chip }

theorem witness_coherentKept : (live lpEvent).Legal ∧ (live lpEvent).Coherent ∧ goesOn (step (live lpEvent)) :=
  ⟨{ plain_legal lpEvent with left := liveChannel_legal _, right := liveChannel_legal _ },
    ⟨liveChannel_coherent _, liveChannel_coherent _⟩, ⟨_, rfl⟩⟩

theorem witness_setIdempotent :
    (Instr.apSetDly 0x40B0#16 3#32).isSet = true ∧ (plain []).Legal ∧ goesOn (exec (.apSetDly 0x40B0#16 3#32) (plain [])) ∧
    goesOn (exec (.apSetDly 0x40B0#16 0#32) (plain [])) := ⟨rfl, plain_legal _, ⟨_, rfl⟩, ⟨_, rfl⟩⟩

end Sys2Proof.Tests
end

section
/-! The rounding of binary32 (spec/00_scope.md R11, R12). A pattern is `Nearest` to a real value when no point halfway to
another pattern separates them, a point in between allowed for an even pattern only. Both roundings of the model, of a ratio
and of a square root, are one construction: the last place of the value, the pattern below it, and the test against the
halfway point (`nearest_lastPlace`). -/

namespace Sys2Proof.Machine

/-! ## Sign and magnitude of a pattern -/

theorem magBits_ofNat {m : Nat} (hm : m < 2 ^ 31) : magBits (BitVec.ofNat 32 m) = m := by
  unfold magBits; rw [BitVec.toNat_ofNat]; omega

theorem magUnits_ofNat {m : Nat} (hm : m < infBits) : magUnits (BitVec.ofNat 32 m) = unitsOf m := by
  rw [magUnits_eq, magBits_ofNat (hm.trans (by decide))]

theorem magBits_withSign (neg : Bool) {m : Nat} (hm : m < 2 ^ 31) : magBits (withSign neg m) = m := by
  unfold magBits withSign
  rw [BitVec.toNat_ofNat]
  cases neg <;> simp only [Bool.false_eq_true, if_true, if_false] <;> omega

theorem magUnits_withSign (neg : Bool) {m : Nat} (hm : m < 2 ^ 31) : magUnits (withSign neg m) = unitsOf m := by
  rw [magUnits_eq, magBits_withSign neg hm]

theorem signBit_withSign (neg : Bool) {m : Nat} (hm : m < 2 ^ 31) : signBit (withSign neg m) = neg := by
  unfold signBit withSign
  rw [BitVec.msb_eq_decide, BitVec.toNat_ofNat]
  cases neg <;> simp only [Bool.false_eq_true, if_true, if_false, decide_eq_true_eq, decide_eq_false_iff_not] <;> omega

theorem isFinite_iff (x : F) : isFinite x = true ↔ magBits x < infBits := decide_eq_true_iff

theorem isNaN_of_isFinite {x : F} (h : isFinite x = true) : isNaN x = false := by
  rw [isFinite_iff] at h
  exact decide_eq_false (by omega)

theorem isInf_of_isFinite {x : F} (h : isFinite x = true) : isInf x = false := by
  rw [isFinite_iff] at h
  exact beq_false_of_ne h.ne

@[simp] theorem signBit_fneg (x : F) : signBit (fneg x) = !signBit x := by
  unfold signBit fneg
  rw [BitVec.msb_xor, show (0x80000000#32).msb = true from rfl, Bool.xor_true]

@[simp] theorem magBits_fneg (x : F) : magBits (fneg x) = magBits x := by
  unfold magBits fneg
  rw [BitVec.toNat_xor, Nat.xor_mod_two_pow, show (0x80000000#32).toNat % 2 ^ 31 = 0 from rfl, Nat.xor_zero]

@[simp] theorem isFinite_fneg (x : F) : isFinite (fneg x) = isFinite x := by
  simp only [isFinite, magBits_fneg]

@[simp] theorem toUnits_fneg (x : F) : toUnits (fneg x) = -toUnits x := by
  unfold toUnits
  rw [signBit_fneg, magUnits_eq, magBits_fneg, ← magUnits_eq]
  cases signBit x <;> simp

theorem magUnits_pos {x : F} (h : isZero x = false) : 0 < magUnits x := by
  have hne : magBits x ≠ 0 := ne_of_beq_false h
  rw [magUnits_eq]
  exact (show unitsOf 0 = 0 by decide) ▸ unitsOf_lt_iff.2 (Nat.pos_of_ne_zero hne)

theorem unitsOf_infBits : unitsOf infBits = 2 ^ 277 := by decide +kernel

theorem unitsOf_lastFinite : unitsOf (infBits - 1) = (2 ^ 24 - 1) * 2 ^ 253 := by decide +kernel

theorem magUnits_lt_of_isFinite {x : F} (h : isFinite x = true) : magUnits x < 2 ^ 277 := by
  rw [magUnits_eq, ← unitsOf_infBits]
  exact unitsOf_lt_iff.2 ((isFinite_iff x).1 h)

/-! ## The NaN of an operation -/

/-- Setting bits does not make a magnitude pattern smaller than those bits. -/
theorem magBits_le_or (x w : F) : magBits w ≤ magBits (x ||| w) := by
  unfold magBits
  rw [BitVec.toNat_or, Nat.or_mod_two_pow]
  exact Nat.right_le_or

theorem fraction_eq_zero {b : F} (h : magBits b = infBits) : b &&& 0x007FFFFF#32 = 0 := by
  apply BitVec.eq_of_toNat_eq
  have hlow : b.toNat &&& 0x007FFFFF = b.toNat % 2 ^ 23 := Nat.and_two_pow_sub_one_eq_mod b.toNat 23
  rw [BitVec.toNat_and]
  refine hlow.trans ?_
  unfold magBits infBits at h
  show b.toNat % 2 ^ 23 = 0
  omega

theorem isNaN_nanResult (op : Config.FloatOp) (x y : F) : isNaN (nanResult op x y) = true := by
  unfold nanResult
  extract_lets b
  refine decide_eq_true ?_
  split
  · calc infBits < magBits 0x7FC00000#32 := by decide
      _ ≤ magBits (Config.nanBits op x y ||| 0x7FC00000#32) := magBits_le_or _ _
      _ = magBits (b ||| 0x00400000#32) := by
        rw [show b ||| 0x00400000#32 = Config.nanBits op x y ||| 0x7FC00000#32 from BitVec.or_assoc _ _ _]
  · next hfrac =>
    have hle : infBits ≤ magBits b := magBits_le_or (Config.nanBits op x y) 0x7F800000#32
    exact lt_of_le_of_ne hle fun heq => hfrac (fraction_eq_zero heq.symm)

/-! ## The pattern nearest a value -/

/-- The pattern `p` is nearest the value `v` in units of 2^-149, ties to even: `v` lies on the side of `p` of every point
halfway between `p` and another pattern, and at such a point only if `p` is even. The patterns go on above infinity, as if
the exponent had no end. -/
structure Nearest (v : ℝ) (p : Nat) : Prop where
  above : ∀ m < p, (unitsOf p + unitsOf m : ℝ) ≤ 2 * v ∧ ((unitsOf p + unitsOf m : ℝ) = 2 * v → p % 2 = 0)
  below : ∀ m > p, 2 * v ≤ (unitsOf p + unitsOf m : ℝ) ∧ (2 * v = (unitsOf p + unitsOf m : ℝ) → p % 2 = 0)

theorem unitsOf_cast_lt {a b : Nat} (h : a < b) : (unitsOf a : ℝ) < unitsOf b := by
  exact_mod_cast unitsOf_lt_iff.2 h

theorem unitsOf_cast_le {a b : Nat} (h : a ≤ b) : (unitsOf a : ℝ) ≤ unitsOf b := by
  exact_mod_cast unitsOf_le_iff.2 h

/-- A value in the lower half of the gap between `a` and its successor. -/
theorem nearest_of_lower_half {v : ℝ} {a : Nat} (hv : (unitsOf a : ℝ) ≤ v)
    (hmid : 2 * v ≤ (unitsOf a + unitsOf (a + 1) : ℝ))
    (heven : 2 * v = (unitsOf a + unitsOf (a + 1) : ℝ) → a % 2 = 0) :
    Nearest v a where
  above m hm := by
    have hlt := unitsOf_cast_lt hm
    exact ⟨by linarith, fun he => by linarith⟩
  below m hm := by
    have hle := unitsOf_cast_le (Nat.succ_le_of_lt hm)
    exact ⟨by linarith, fun he => heven (by linarith)⟩

/-- A value in the upper half of the gap between `a` and its successor. -/
theorem nearest_of_upper_half {v : ℝ} {a : Nat} (hv : v ≤ (unitsOf (a + 1) : ℝ))
    (hmid : (unitsOf a + unitsOf (a + 1) : ℝ) ≤ 2 * v)
    (heven : (unitsOf a + unitsOf (a + 1) : ℝ) = 2 * v → (a + 1) % 2 = 0) :
    Nearest v (a + 1) where
  above m hm := by
    have hle := unitsOf_cast_le (Nat.le_of_lt_succ hm)
    exact ⟨by linarith, fun he => heven (by linarith)⟩
  below m hm := by
    have hlt := unitsOf_cast_lt hm
    exact ⟨by linarith, fun he => by linarith⟩

theorem Nearest.le_of_le {v : ℝ} {p m : Nat} (h : Nearest v p) (hv : v ≤ unitsOf m) : p ≤ m := by
  by_contra hlt
  have hmid := (h.above m (not_le.1 hlt)).1
  have := unitsOf_cast_lt (not_le.1 hlt)
  linarith

/-- The clamp at infinity keeps what lies below the value. -/
theorem Nearest.above_min {v : ℝ} {p m : Nat} (h : Nearest v p) (hm : m < min p infBits) :
    (unitsOf (min p infBits) + unitsOf m : ℝ) ≤ 2 * v ∧
    ((unitsOf (min p infBits) + unitsOf m : ℝ) = 2 * v → min p infBits % 2 = 0) := by
  rcases le_or_gt p infBits with hp | hp
  · rw [min_eq_left hp] at hm ⊢
    exact h.above m hm
  · rw [min_eq_right hp.le] at hm ⊢
    have hmid := (h.above infBits hp).1
    have hlt := unitsOf_cast_lt (hm.trans hp)
    exact ⟨by linarith, fun _ => by decide⟩

/-! ## The construction of the nearest pattern -/

/-- The pattern of a significand `t` at last place `k`: 24 bits, or fewer at the smallest last place; also one past them,
where the significand carries into the exponent. -/
theorem unitsOf_significand {k t : Nat} (hle : t ≤ 2 ^ 24) (hge : k = 0 ∨ 2 ^ 23 ≤ t) :
    unitsOf (k * 2 ^ 23 + t) = t * 2 ^ k := by
  unfold unitsOf
  rcases Nat.lt_or_ge t (2 ^ 23) with hsub | hnorm
  · have hk : k = 0 := by omega
    subst hk
    rw [if_pos (by omega)]
    omega
  rcases Nat.lt_or_eq_of_le hle with hlt | rfl
  · have hexp : (k * 2 ^ 23 + t) / 2 ^ 23 = k + 1 := by omega
    rw [hexp, if_neg (by omega), show 2 ^ 23 + (k * 2 ^ 23 + t) % 2 ^ 23 = t by omega, Nat.add_sub_cancel]
  · have hexp : (k * 2 ^ 23 + 2 ^ 24) / 2 ^ 23 = k + 2 := by omega
    rw [hexp, if_neg (by omega), show 2 ^ 23 + (k * 2 ^ 23 + 2 ^ 24) % 2 ^ 23 = 2 ^ 23 by omega]
    rw [show k + 2 - 1 = k + 1 by omega, pow_succ 2 k]
    ring

/-- The significand of `q` at its last place has at most 24 bits, and has all 24 but at the smallest last place. -/
theorem significand_bounds (q : Nat) :
    q / 2 ^ (q.log2 - 23) < 2 ^ 24 ∧ (q.log2 - 23 = 0 ∨ 2 ^ 23 ≤ q / 2 ^ (q.log2 - 23)) := by
  rcases Nat.eq_zero_or_pos q with rfl | hq
  · simp
  rw [Nat.div_lt_iff_lt_mul (Nat.two_pow_pos _), Nat.le_div_iff_mul_le (Nat.two_pow_pos _), ← pow_add, ← pow_add,
    ← Nat.log2_lt hq.ne', ← Nat.le_log2 hq.ne']
  omega

/-- The construction both roundings share: the significand `r` at the last place `k` of the value, one more where the value
is past the halfway point `(2 * r + 1) * 2 ^ k / 2`, or at it with `r` odd. -/
theorem nearest_lastPlace {v : ℝ} {q k r : Nat} {up : Bool} (hv : 0 ≤ v) (hq : q = ⌊v⌋₊) (hk : k = q.log2 - 23)
    (hr : r = q / 2 ^ k)
    (hup : up = true ↔ (((2 * r + 1) * 2 ^ k : Nat) : ℝ) < 2 * v ∨
      (((2 * r + 1) * 2 ^ k : Nat) : ℝ) = 2 * v ∧ r % 2 = 1) :
    Nearest v (k * 2 ^ 23 + if up = true then r + 1 else r) := by
  obtain ⟨hlt, hge⟩ : r < 2 ^ 24 ∧ (k = 0 ∨ 2 ^ 23 ≤ r) := by
    subst hr hk
    exact significand_bounds q
  have hlow : unitsOf (k * 2 ^ 23 + r) = r * 2 ^ k := unitsOf_significand hlt.le hge
  have hhigh : unitsOf (k * 2 ^ 23 + r + 1) = (r + 1) * 2 ^ k := by
    rw [add_assoc]; exact unitsOf_significand hlt (by omega)
  have hmid : (unitsOf (k * 2 ^ 23 + r) + unitsOf (k * 2 ^ 23 + r + 1) : ℝ) = ((2 * r + 1) * 2 ^ k : Nat) := by
    rw [hlow, hhigh]; push_cast; ring
  have hle : (unitsOf (k * 2 ^ 23 + r) : ℝ) ≤ v := by
    rw [hlow, hr]
    exact (Nat.cast_le.2 (Nat.div_mul_le_self q _)).trans (hq ▸ Nat.floor_le hv)
  have hlt' : v ≤ (unitsOf (k * 2 ^ 23 + r + 1) : ℝ) := by
    have hnext : q + 1 ≤ (r + 1) * 2 ^ k := by
      rw [hr]; exact Nat.lt_mul_of_div_lt (Nat.lt_succ_self _) (Nat.two_pow_pos _)
    rw [hhigh]
    refine le_trans ?_ (Nat.cast_le.2 hnext)
    rw [hq]; push_cast; exact (Nat.lt_floor_add_one v).le
  rw [← hmid] at hup
  split
  · next h =>
    rw [← add_assoc]
    refine nearest_of_upper_half hlt' ?_ fun he => ?_
    · exact (hup.1 h).elim le_of_lt fun htie => htie.1.le
    · have hodd : r % 2 = 1 := (hup.1 h).elim (fun hpast => absurd he hpast.ne) And.right
      omega
  · next h =>
    obtain ⟨hnpast, hntie⟩ := not_or.1 (mt hup.2 h)
    refine nearest_of_lower_half hle (not_lt.1 hnpast) fun he => ?_
    have hneven : ¬ r % 2 = 1 := fun hodd => hntie ⟨he.symm, hodd⟩
    omega

/-! ## The rounding of a ratio -/

theorem le_two_ratio {num den s : Nat} (hd : 0 < den) : (s : ℝ) ≤ 2 * (num / den) ↔ s * den ≤ 2 * num := by
  rw [← mul_div_assoc, le_div_iff₀ (Nat.cast_pos.2 hd)]
  norm_cast

theorem two_ratio_le {num den s : Nat} (hd : 0 < den) : 2 * (num / den) ≤ (s : ℝ) ↔ 2 * num ≤ s * den := by
  rw [← mul_div_assoc, div_le_iff₀ (Nat.cast_pos.2 hd)]
  norm_cast

/-- The pattern of a ratio, before the clamp at infinity: the test of the remainder is the test of the ratio against the
halfway point. -/
theorem nearest_halfEven (num : Nat) {den : Nat} (hd : 0 < den) :
    Nearest (num / den) (lastPlace num den * 2 ^ 23 + halfEven num (den * 2 ^ lastPlace num den)) := by
  refine nearest_lastPlace (q := num / den) (by positivity) (Nat.floor_div_eq_div num den).symm rfl
    (Nat.div_div_eq_div_mul _ _ _).symm ?_
  generalize hu : den * 2 ^ lastPlace num den = u
  have hdiv := Nat.div_add_mod num u
  have hmid : (2 * (num / u) + 1) * 2 ^ lastPlace num den * den = 2 * (u * (num / u)) + u := by rw [← hu]; ring
  simp only [Bool.or_eq_true, Bool.and_eq_true, decide_eq_true_eq, beq_iff_eq]
  rw [← not_le (a := 2 * ((num : ℝ) / den)), le_antisymm_iff (α := ℝ), le_two_ratio hd, two_ratio_le hd, hmid]
  omega

theorem Nearest.ratio_above {num den p m : Nat} (h : Nearest (num / den) p) (hd : 0 < den) (hm : m < min p infBits) :
    (unitsOf (min p infBits) + unitsOf m) * den ≤ 2 * num ∧
    ((unitsOf (min p infBits) + unitsOf m) * den = 2 * num → min p infBits % 2 = 0) := by
  obtain ⟨hle, heven⟩ := h.above_min hm
  rw [← Nat.cast_add] at hle heven
  exact ⟨(le_two_ratio hd).1 hle, fun he => heven (le_antisymm hle ((two_ratio_le hd).2 he.ge))⟩

theorem Nearest.ratio_below {num den p m : Nat} (h : Nearest (num / den) p) (hd : 0 < den) (hm : p < m) :
    2 * num ≤ (unitsOf p + unitsOf m) * den ∧ (2 * num = (unitsOf p + unitsOf m) * den → p % 2 = 0) := by
  obtain ⟨hle, heven⟩ := h.below m hm
  rw [← Nat.cast_add] at hle heven
  exact ⟨(two_ratio_le hd).1 hle, fun he => heven (le_antisymm hle ((le_two_ratio hd).2 he.ge))⟩

/-- No finite magnitude is nearer than the nearest pattern, and one as near is at a tie. -/
theorem Nearest.ratio_distance {num den p m : Nat} (h : Nearest (num / den) p) (hd : 0 < den) (hp : p < infBits) :
    ((unitsOf p * den : Nat) - num : Int).natAbs ≤ ((unitsOf m * den : Nat) - num : Int).natAbs ∧
    (m ≠ p → ((unitsOf p * den : Nat) - num : Int).natAbs = ((unitsOf m * den : Nat) - num : Int).natAbs →
      p % 2 = 0) := by
  rcases lt_trichotomy m p with hm | rfl | hm
  · obtain ⟨hle, heven⟩ := min_eq_left hp.le ▸ h.ratio_above hd (m := m) (by omega)
    have hlt := Nat.mul_lt_mul_of_pos_right (unitsOf_lt_iff.2 hm) hd
    rw [add_mul] at hle heven
    exact ⟨by omega, fun _ he => heven (by omega)⟩
  · exact ⟨le_rfl, fun hne => absurd rfl hne⟩
  · obtain ⟨hle, heven⟩ := h.ratio_below hd hm
    have hlt := Nat.mul_lt_mul_of_pos_right (unitsOf_lt_iff.2 hm) hd
    rw [add_mul] at hle heven
    exact ⟨by omega, fun _ he => heven (by omega)⟩

theorem unitsOf_overflow : unitsOf infBits + unitsOf (infBits - 1) = 2 * ((2 ^ 25 - 1) * 2 ^ 252) := by
  rw [unitsOf_infBits, unitsOf_lastFinite]; decide +kernel

/-- The rounding overflows from the point halfway between the largest finite value and the next place up. -/
theorem Nearest.ratio_overflow {num den p : Nat} (h : Nearest (num / den) p) (hd : 0 < den) :
    min p infBits = infBits ↔ (2 ^ 25 - 1) * 2 ^ 252 * den ≤ num := by
  constructor
  · intro hp
    have hle := (h.ratio_above hd (m := infBits - 1) (by rw [hp]; decide)).1
    rw [hp, unitsOf_overflow, mul_assoc] at hle
    omega
  · intro hnum
    by_contra hne
    have hp : p ≤ infBits - 1 := by omega
    obtain ⟨hle, heven⟩ := h.ratio_below hd (m := infBits) (by omega)
    rcases Nat.lt_or_eq_of_le hp with hp | rfl
    · have hunits := unitsOf_lt_iff.2 hp
      have hsum : (unitsOf p + unitsOf infBits) * den < (unitsOf infBits + unitsOf (infBits - 1)) * den :=
        Nat.mul_lt_mul_of_pos_right (by omega) hd
      rw [unitsOf_overflow, mul_assoc] at hsum
      omega
    · rw [add_comm, unitsOf_overflow, mul_assoc] at hle heven
      exact absurd (heven (by omega)) (by decide)

/-- R11: the one rounding of every operation is to nearest, ties to even. -/
theorem roundedTo_roundMag (neg : Bool) (num : Nat) {den : Nat} (hd : 0 < den) :
    RoundedTo (withSign neg (roundMag num den)) neg num den := by
  have h := nearest_halfEven num hd
  rw [roundMag_eq]
  generalize lastPlace num den * 2 ^ 23 + halfEven num (den * 2 ^ lastPlace num den) = p at h
  have hlt : min p infBits < 2 ^ 31 := (min_le_right p infBits).trans_lt (by decide)
  have hmag := magBits_withSign neg hlt
  have hmin (hfin : min p infBits < infBits) : min p infBits = p := by omega
  refine ⟨signBit_withSign neg hlt, ?_, ?_, ?_, ?_⟩ <;> rw [hmag]
  · exact min_le_right _ _
  · intro hfin m hm
    rw [magUnits_withSign neg hlt, magUnits_ofNat hm, hmin hfin]
    exact (h.ratio_distance hd (hmin hfin ▸ hfin)).1
  · intro hfin m hm hne htie
    rw [magUnits_withSign neg hlt, magUnits_ofNat hm, hmin hfin] at htie
    rw [hmin hfin] at hne ⊢
    exact (h.ratio_distance hd (hmin hfin ▸ hfin)).2 hne htie
  · exact h.ratio_overflow hd

/-! ## The rounding of a square root -/

theorem isqrtBits_spec (b n r : Nat) (hlo : r * r ≤ n) (hhi : n < (r + 2 ^ b) * (r + 2 ^ b)) :
    isqrtBits b n r * isqrtBits b n r ≤ n ∧ n < (isqrtBits b n r + 1) * (isqrtBits b n r + 1) := by
  induction b generalizing r with
  | zero => exact ⟨hlo, hhi⟩
  | succ b ih =>
    unfold isqrtBits
    split
    · next hbit => exact ih (r + 2 ^ b) hbit (by rwa [add_assoc, ← two_mul, ← pow_succ'])
    · next hbit => exact ih r hlo (not_le.1 hbit)

theorem isqrt_eq_sqrt {n : Nat} (hn : n < 2 ^ 448) : isqrt n = Nat.sqrt n :=
  Nat.eq_sqrt.2 (isqrtBits_spec 224 n 0 (Nat.zero_le n) (by rwa [zero_add, ← pow_add, show 224 + 224 = 448 from rfl]))

theorem two_sqrt_eq (n : Nat) : 2 * √(n : ℝ) = √((4 * n : Nat) : ℝ) := by
  rw [Nat.cast_mul, Real.sqrt_mul (Nat.cast_nonneg 4), show ((4 : Nat) : ℝ) = 2 ^ 2 by norm_num,
    Real.sqrt_sq zero_le_two]

theorem le_two_sqrt {n s : Nat} : (s : ℝ) ≤ 2 * √n ↔ s ^ 2 ≤ 4 * n := by
  rw [two_sqrt_eq, Real.le_sqrt (Nat.cast_nonneg _) (Nat.cast_nonneg _)]
  norm_cast

theorem two_sqrt_le {n s : Nat} : 2 * √n ≤ (s : ℝ) ↔ 4 * n ≤ s ^ 2 := by
  rw [two_sqrt_eq, Real.sqrt_le_left (Nat.cast_nonneg _)]
  norm_cast

/-- The pattern of a square root, before the clamp at infinity. -/
theorem exists_nearest_roundSqrt {n : Nat} (hn : n < 2 ^ 448) :
    ∃ p, roundSqrt n = min p infBits ∧ Nearest (√(n : ℝ)) p := by
  refine ⟨_, rfl, nearest_lastPlace (Real.sqrt_nonneg _) ?_ rfl rfl ?_⟩
  · rw [isqrt_eq_sqrt hn, Real.nat_floor_real_sqrt_eq_nat_sqrt]
  · simp only [Bool.or_eq_true, Bool.and_eq_true, decide_eq_true_eq, beq_iff_eq]
    rw [← not_le (a := 2 * √(n : ℝ)), le_antisymm_iff (α := ℝ), le_two_sqrt, two_sqrt_le, sq]
    omega

theorem Nearest.sqrt_above {n p m : Nat} (h : Nearest (√(n : ℝ)) p) (hm : m < p) :
    (unitsOf p + unitsOf m) ^ 2 ≤ 4 * n ∧ ((unitsOf p + unitsOf m) ^ 2 = 4 * n → p % 2 = 0) := by
  obtain ⟨hle, heven⟩ := h.above m hm
  rw [← Nat.cast_add] at hle heven
  exact ⟨le_two_sqrt.1 hle, fun he => heven (le_antisymm hle (two_sqrt_le.2 he.ge))⟩

theorem Nearest.sqrt_below {n p m : Nat} (h : Nearest (√(n : ℝ)) p) (hm : p < m) :
    4 * n ≤ (unitsOf p + unitsOf m) ^ 2 ∧ (4 * n = (unitsOf p + unitsOf m) ^ 2 → p % 2 = 0) := by
  obtain ⟨hle, heven⟩ := h.below m hm
  rw [← Nat.cast_add] at hle heven
  exact ⟨two_sqrt_le.1 hle, fun he => heven (le_antisymm hle (le_two_sqrt.2 he.ge))⟩

/-- The root of a number below 2^448 is far below the largest finite value. -/
theorem Nearest.sqrt_lt_inf {n p : Nat} (hn : n < 2 ^ 448) (h : Nearest (√(n : ℝ)) p) : p < infBits := by
  have hle : p ≤ infBits - 1 := by
    refine h.le_of_le ?_
    rw [unitsOf_lastFinite, Real.sqrt_le_left (Nat.cast_nonneg _)]
    norm_cast
    calc n ≤ 2 ^ 448 := hn.le
      _ ≤ ((2 ^ 24 - 1) * 2 ^ 253) ^ 2 := by decide +kernel
  exact Nat.lt_of_le_pred (by decide) hle

/-- R12: the square root is rounded once, to nearest, ties to even. -/
theorem rootedTo_roundSqrt {n : Nat} (hn : n < 2 ^ 448) : RootedTo (withSign false (roundSqrt n)) n := by
  obtain ⟨p, hp, h⟩ := exists_nearest_roundSqrt hn
  have hinf := h.sqrt_lt_inf hn
  rw [hp, min_eq_left hinf.le]
  have hlt : p < 2 ^ 31 := hinf.trans (by decide)
  have hmag := magBits_withSign false hlt
  refine ⟨signBit_withSign false hlt, hmag.symm ▸ hinf, fun m hm hlow => ?_, fun m hm hhigh => ?_⟩
  · rw [magUnits_withSign false hlt, magUnits_ofNat hm] at hlow ⊢
    rw [hmag]
    exact h.sqrt_above (unitsOf_lt_iff.1 hlow)
  · rw [magUnits_withSign false hlt, magUnits_ofNat hm] at hhigh ⊢
    rw [hmag]
    exact h.sqrt_below (unitsOf_lt_iff.1 hhigh)

/-! ## The operations on finite values -/

section
variable {x y : F}

theorem addCore_of_isFinite (op : Config.FloatOp) (x' : F) (hx : isFinite x = true) (hy : isFinite y = true) :
    addCore op x x' y = roundUnits (signBit x && signBit y) (toUnits x + toUnits y) := by
  simp only [addCore, isInf_of_isFinite hx, isInf_of_isFinite hy, Bool.false_eq_true, if_false]

theorem fadd_of_isFinite (hx : isFinite x = true) (hy : isFinite y = true) :
    fadd x y = roundUnits (signBit x && signBit y) (toUnits x + toUnits y) := by
  simp only [fadd, isNaN_of_isFinite hx, isNaN_of_isFinite hy, Bool.or_self, Bool.false_eq_true, if_false,
    addCore_of_isFinite _ _ hx hy]

theorem fsub_of_isFinite (hx : isFinite x = true) (hy : isFinite y = true) :
    fsub x y = roundUnits (signBit x && !signBit y) (toUnits x - toUnits y) := by
  have hy' : isFinite (fneg y) = true := (isFinite_fneg y).trans hy
  simp only [fsub, isNaN_of_isFinite hx, isNaN_of_isFinite hy, Bool.or_self, Bool.false_eq_true, if_false,
    addCore_of_isFinite _ _ hx hy', signBit_fneg, toUnits_fneg, ← sub_eq_add_neg]

theorem fmul_of_isFinite (hx : isFinite x = true) (hy : isFinite y = true) :
    fmul x y = withSign (signBit x != signBit y) (roundMag (magUnits x * magUnits y) (2 ^ 149)) := by
  simp only [fmul, isNaN_of_isFinite hx, isNaN_of_isFinite hy, isInf_of_isFinite hx, isInf_of_isFinite hy, Bool.or_self,
    Bool.false_eq_true, if_false]

theorem fdiv_of_isFinite (hx : isFinite x = true) (hy : isFinite y = true) (h0 : isZero y = false) :
    fdiv x y = withSign (signBit x != signBit y) (roundMag (magUnits x * 2 ^ 149) (magUnits y)) := by
  simp only [fdiv, isNaN_of_isFinite hx, isNaN_of_isFinite hy, isInf_of_isFinite hx, isInf_of_isFinite hy, h0,
    Bool.or_self, Bool.false_eq_true, if_false]

theorem fsqrt_of_isZero (hx : isFinite x = true) (h0 : isZero x = true) : fsqrt x = x := by
  simp only [fsqrt, isNaN_of_isFinite hx, h0, Bool.false_eq_true, if_true, if_false]

theorem fsqrt_of_negative (hx : isFinite x = true) (h0 : isZero x = false) (hs : signBit x = true) :
    fsqrt x = nanResult .sqrt x x := by
  simp only [fsqrt, isNaN_of_isFinite hx, h0, hs, Bool.false_eq_true, if_true, if_false]

theorem fsqrt_of_positive (hx : isFinite x = true) (h0 : isZero x = false) (hs : signBit x = false) :
    fsqrt x = withSign false (roundSqrt (magUnits x * 2 ^ 149)) := by
  simp only [fsqrt, isNaN_of_isFinite hx, isInf_of_isFinite hx, h0, hs, Bool.false_eq_true, if_false]

end

theorem roundUnits_of_ne_zero (zneg : Bool) {n : Int} (hn : n ≠ 0) :
    RoundedTo (roundUnits zneg n) (decide (n < 0)) n.natAbs 1 := by
  rw [roundUnits, if_neg hn]
  exact roundedTo_roundMag _ _ one_pos

theorem roundUnits_of_eq_zero (zneg : Bool) {n : Int} (hn : n = 0) :
    roundUnits zneg n = if zneg = true then 0x80000000#32 else 0x00000000#32 := by
  rw [roundUnits, if_pos hn]
  cases zneg <;> rfl

theorem itof_of_ne_zero {n : Int} (hn : n ≠ 0) : RoundedTo (itof n) (decide (n < 0)) (n.natAbs * 2 ^ 149) 1 := by
  have h := roundUnits_of_ne_zero false (mul_ne_zero hn (show (2 : Int) ^ 149 ≠ 0 by decide))
  have hneg : n * 2 ^ 149 < 0 ↔ n < 0 := by omega
  rwa [Int.natAbs_mul, decide_eq_decide.2 hneg] at h

theorem fsqrt_rootedTo {x : F} (hx : isFinite x = true) (h0 : isZero x = false) (hs : signBit x = false) :
    RootedTo (fsqrt x) (magUnits x * 2 ^ 149) := by
  rw [fsqrt_of_positive hx h0 hs]
  refine rootedTo_roundSqrt ?_
  have hx' : magUnits x < 2 ^ 299 := (magUnits_lt_of_isFinite hx).trans (by decide +kernel)
  rw [show 448 = 299 + 149 from rfl, pow_add]
  exact Nat.mul_lt_mul_of_pos_right hx' (Nat.two_pow_pos _)

theorem ftoiFloor_bounds {x : F} (hx : isFinite x = true) :
    ftoiFloor x * 2 ^ 149 ≤ toUnits x ∧ toUnits x < (ftoiFloor x + 1) * 2 ^ 149 := by
  rw [ftoiFloor, if_pos hx]
  exact ⟨Int.ediv_mul_le _ (by decide), Int.lt_ediv_add_one_mul_self _ (by decide)⟩

/-- Settles O23: every operation is its exact result put through one of the two roundings, and both roundings give the
nearest pattern. -/
theorem roundNearest : Obligations.RoundNearest := by
  unfold Obligations.RoundNearest
  refine ⟨fun neg num den => roundedTo_roundMag neg num, fun x y hx hy => ?_, fun n => ?_, fun x hx => ?_⟩
  · rw [fadd_of_isFinite hx hy, fsub_of_isFinite hx hy, fmul_of_isFinite hx hy]
    refine ⟨roundUnits_of_ne_zero _, fun h => ?_, roundUnits_of_ne_zero _, fun h => ?_,
      roundedTo_roundMag _ _ (Nat.two_pow_pos _), fun h0 => ?_⟩
    · simpa using roundUnits_of_eq_zero (signBit x && signBit y) h
    · simpa using roundUnits_of_eq_zero (signBit x && !signBit y) h
    · rw [fdiv_of_isFinite hx hy h0]
      exact roundedTo_roundMag _ _ (magUnits_pos h0)
  · refine ⟨itof_of_ne_zero, fun h => ?_⟩
    subst h
    rfl
  · refine ⟨fsqrt_of_isZero hx, fun h0 hs => ?_, fsqrt_rootedTo hx, ftoiFloor_bounds hx⟩
    rw [fsqrt_of_negative hx h0 hs]
    exact isNaN_nanResult _ _ _

end Sys2Proof.Machine
end

section
/-! Ranges of binary32 results (spec/00_scope.md R11, R12). The one rounding is monotone and exact on patterns, so an exact
result between two binary32 values is rounded to a value between them (`inRange_withSign`); the bounds that the random
values, the stage settings and the taps need all come from this (spec/40_rng.md R133 to R135, spec/44_diffuser.md R222,
R223, spec/43_allpass.md R196). -/

namespace Sys2Proof.Machine

/-! ## The order of patterns is the order of their units -/

theorem natAbs_orderKey (x : F) : (orderKey x).natAbs = magBits x := by
  unfold orderKey
  split <;> omega

theorem orderKey_le_iff (x y : F) : orderKey x ≤ orderKey y ↔ toUnits x ≤ toUnits y := by
  have hxy : magUnits x ≤ magUnits y ↔ magBits x ≤ magBits y := unitsOf_le_iff
  have hyx : magUnits y ≤ magUnits x ↔ magBits y ≤ magBits x := unitsOf_le_iff
  have hx0 : magUnits x ≤ 0 ↔ magBits x ≤ 0 := unitsOf_le_iff (b := 0)
  have hy0 : magUnits y ≤ 0 ↔ magBits y ≤ 0 := unitsOf_le_iff (b := 0)
  unfold orderKey toUnits
  cases signBit x <;> cases signBit y <;> simp only [Bool.false_eq_true, if_true, if_false] <;> omega

/-- With finite values, the comparison is that of their units. -/
theorem fle_iff {x y : F} (hx : isFinite x = true) (hy : isFinite y = true) :
    fle x y = true ↔ toUnits x ≤ toUnits y := by
  simp only [fle, isNaN_of_isFinite hx, isNaN_of_isFinite hy, Bool.not_false, Bool.true_and, decide_eq_true_eq,
    orderKey_le_iff]

/-- With finite bounds, a value in range is finite and its units lie between theirs. -/
theorem inRange_iff {lo hi v : F} (hlo : isFinite lo = true) (hhi : isFinite hi = true) :
    inRange lo hi v = true ↔ isFinite v = true ∧ toUnits lo ≤ toUnits v ∧ toUnits v ≤ toUnits hi := by
  simp only [inRange, fle, isNaN_of_isFinite hlo, isNaN_of_isFinite hhi, Bool.not_false, Bool.true_and, Bool.and_true,
    Bool.and_eq_true, Bool.not_eq_true', decide_eq_true_eq, ← orderKey_le_iff]
  constructor
  · rintro ⟨⟨-, hge⟩, -, hle⟩
    have hl := natAbs_orderKey lo
    have hh := natAbs_orderKey hi
    have hv := natAbs_orderKey v
    rw [isFinite_iff] at *
    exact ⟨by omega, hge, hle⟩
  · rintro ⟨hv, hge, hle⟩
    exact ⟨⟨isNaN_of_isFinite hv, hge⟩, isNaN_of_isFinite hv, hle⟩

/-! ## Rounding keeps a range -/

theorem orderKey_withSign (neg : Bool) {m : Nat} (hm : m < 2 ^ 31) :
    orderKey (withSign neg m) = if neg then -(m : Int) else (m : Int) := by
  rw [orderKey, signBit_withSign neg hm, magBits_withSign neg hm]

theorem roundMag_lt (num den : Nat) : roundMag num den < 2 ^ 31 := (roundMag_le_inf num den).trans_lt (by decide)

/-- An exact value `± num / den` not above a binary32 value is rounded to one not above it. -/
theorem orderKey_rounded_le {neg : Bool} {num den : Nat} {z : F} (hz : isFinite z = true) (hd : 0 < den)
    (h : (if neg then -(num : Int) else num) ≤ toUnits z * den) :
    orderKey (withSign neg (roundMag num den)) ≤ orderKey z := by
  have hinf : magBits z ≤ infBits := ((isFinite_iff z).1 hz).le
  rw [orderKey_withSign neg (roundMag_lt num den)]
  unfold orderKey
  unfold toUnits at h
  rw [magUnits_eq] at h
  cases hs : signBit z <;> cases neg <;> simp only [hs, Bool.false_eq_true, if_true, if_false] at h ⊢
  case false.false => exact_mod_cast roundMag_le hd (by exact_mod_cast h)
  case false.true => omega
  case true.false =>
    have hpos : 0 ≤ (unitsOf (magBits z) : Int) * den := by positivity
    have hnum : num ≤ unitsOf 0 * den := by rw [show unitsOf 0 = 0 from rfl]; zify; linarith
    have hzero : unitsOf (magBits z) * den ≤ unitsOf 0 * den := by
      rw [show unitsOf 0 = 0 from rfl]; zify; linarith
    have h0 := roundMag_le hd hnum
    have hz0 := unitsOf_le_iff.1 (Nat.le_of_mul_le_mul_right hzero hd)
    omega
  case true.true =>
    have := le_roundMag hd hinf (num := num) (by zify; linarith)
    omega

/-- An exact value `± num / den` not below a binary32 value is rounded to one not below it. -/
theorem le_orderKey_rounded {neg : Bool} {num den : Nat} {z : F} (hz : isFinite z = true) (hd : 0 < den)
    (h : toUnits z * den ≤ if neg then -(num : Int) else num) :
    orderKey z ≤ orderKey (withSign neg (roundMag num den)) := by
  have hneg : orderKey (fneg z) = -orderKey z := by
    unfold orderKey
    rw [signBit_fneg, magBits_fneg]
    cases signBit z <;> simp
  have hflip : orderKey (withSign (!neg) (roundMag num den)) ≤ orderKey (fneg z) := by
    refine orderKey_rounded_le ((isFinite_fneg z).trans hz) hd ?_
    rw [toUnits_fneg]
    cases neg <;> simp only [Bool.not_false, Bool.not_true, Bool.false_eq_true, if_true, if_false] at h ⊢ <;> linarith
  rw [hneg, orderKey_withSign _ (roundMag_lt num den)] at hflip
  rw [orderKey_withSign _ (roundMag_lt num den)]
  cases neg <;> simp only [Bool.not_false, Bool.not_true, Bool.false_eq_true, if_true, if_false] at hflip ⊢ <;> omega

/-- An exact value `n / den` between two binary32 values is rounded to a value between them. -/
theorem inRange_withSign {lo hi : F} {neg : Bool} {num den : Nat} {n : Int} (hlo : isFinite lo = true)
    (hhi : isFinite hi = true) (hd : 0 < den) (hn : (if neg then -(num : Int) else num) = n)
    (hge : toUnits lo * den ≤ n) (hle : n ≤ toUnits hi * den) :
    inRange lo hi (withSign neg (roundMag num den)) = true := by
  subst hn
  have hr : isNaN (withSign neg (roundMag num den)) = false := by
    refine decide_eq_false ?_
    rw [magBits_withSign neg (roundMag_lt num den)]
    exact not_lt.2 (roundMag_le_inf num den)
  simp only [inRange, fle, isNaN_of_isFinite hlo, isNaN_of_isFinite hhi, hr, Bool.not_false, Bool.true_and,
    le_orderKey_rounded hlo hd hge, orderKey_rounded_le hhi hd hle, decide_true]

theorem inRange_roundUnits {lo hi : F} (zneg : Bool) {n : Int} (hlo : isFinite lo = true) (hhi : isFinite hi = true)
    (hge : toUnits lo ≤ n) (hle : n ≤ toUnits hi) : inRange lo hi (roundUnits zneg n) = true := by
  unfold roundUnits
  split
  · next h0 =>
    exact inRange_withSign (num := 0) (den := 1) (n := n) hlo hhi one_pos (by simp [h0]) (by simpa using hge)
      (by simpa using hle)
  · refine inRange_withSign hlo hhi one_pos ?_ (by simpa using hge) (by simpa using hle)
    by_cases hn : n < 0 <;> simp only [hn, decide_true, decide_false, Bool.false_eq_true, if_true, if_false] <;> omega

section
variable {lo hi x y : F}

theorem inRange_fadd (hlo : isFinite lo = true) (hhi : isFinite hi = true) (hx : isFinite x = true)
    (hy : isFinite y = true) (hge : toUnits lo ≤ toUnits x + toUnits y) (hle : toUnits x + toUnits y ≤ toUnits hi) :
    inRange lo hi (fadd x y) = true := by
  rw [fadd_of_isFinite hx hy]
  exact inRange_roundUnits _ hlo hhi hge hle

theorem inRange_fsub (hlo : isFinite lo = true) (hhi : isFinite hi = true) (hx : isFinite x = true)
    (hy : isFinite y = true) (hge : toUnits lo ≤ toUnits x - toUnits y) (hle : toUnits x - toUnits y ≤ toUnits hi) :
    inRange lo hi (fsub x y) = true := by
  rw [fsub_of_isFinite hx hy]
  exact inRange_roundUnits _ hlo hhi hge hle

theorem inRange_fmul (hlo : isFinite lo = true) (hhi : isFinite hi = true) (hx : isFinite x = true)
    (hy : isFinite y = true) (hge : toUnits lo * 2 ^ 149 ≤ toUnits x * toUnits y)
    (hle : toUnits x * toUnits y ≤ toUnits hi * 2 ^ 149) : inRange lo hi (fmul x y) = true := by
  rw [fmul_of_isFinite hx hy]
  refine inRange_withSign hlo hhi (Nat.two_pow_pos _) ?_ (by exact_mod_cast hge) (by exact_mod_cast hle)
  unfold toUnits
  cases signBit x <;> cases signBit y <;> simp

/-- A product within bounds on the two magnitudes. -/
theorem inRange_fmul_of_abs {a b : Int} (hhi : isFinite hi = true) (hx : isFinite x = true) (hy : isFinite y = true)
    (ha : |toUnits x| ≤ a) (hb : |toUnits y| ≤ b) (hab : a * b ≤ toUnits hi * 2 ^ 149) :
    inRange (fneg hi) hi (fmul x y) = true := by
  have habs : |toUnits x * toUnits y| ≤ toUnits hi * 2 ^ 149 := by
    rw [abs_mul]
    exact (mul_le_mul ha hb (abs_nonneg _) ((abs_nonneg _).trans ha)).trans hab
  obtain ⟨hge, hle⟩ := abs_le.1 habs
  refine inRange_fmul ((isFinite_fneg hi).trans hhi) hhi hx hy ?_ hle
  rwa [toUnits_fneg, neg_mul]

theorem inRange_itof {n : Int} (hlo : isFinite lo = true) (hhi : isFinite hi = true) (hge : toUnits lo ≤ n * 2 ^ 149)
    (hle : n * 2 ^ 149 ≤ toUnits hi) : inRange lo hi (itof n) = true :=
  inRange_roundUnits _ hlo hhi hge hle

end

/-! ## Values in [0, 1] -/

@[simp] theorem toUnits_fzero : toUnits fzero = 0 := rfl
@[simp] theorem toUnits_fone : toUnits fone = 2 ^ 149 := by decide
@[simp] theorem toUnits_fnegOne : toUnits fnegOne = -2 ^ 149 := by decide
@[simp] theorem toUnits_ftwo : toUnits ftwo = 2 ^ 150 := by decide
@[simp] theorem toUnits_fhalf : toUnits fhalf = 2 ^ 148 := by decide

theorem inUnit_iff {v : F} : inUnit v = true ↔ isFinite v = true ∧ 0 ≤ toUnits v ∧ toUnits v ≤ 2 ^ 149 := by
  rw [inUnit, inRange_iff (by decide) (by decide), toUnits_fzero, toUnits_fone]

/-- A value of [0, 1] times a value that is not negative is not above that value. -/
theorem inRange_fmul_unit {c x : F} (hc : inUnit c = true) (hx : isFinite x = true) (h0 : 0 ≤ toUnits x) :
    inRange fzero x (fmul c x) = true := by
  obtain ⟨hcf, hc0, hc1⟩ := inUnit_iff.1 hc
  refine inRange_fmul (by decide) hx hcf hx ?_ ?_
  · simpa using mul_nonneg hc0 h0
  · rw [mul_comm (toUnits x)]
    exact mul_le_mul_of_nonneg_right hc1 h0

theorem inUnit_fmul {c x : F} (hc : inUnit c = true) (hx : inUnit x = true) : inUnit (fmul c x) = true := by
  obtain ⟨hxf, hx0, hx1⟩ := inUnit_iff.1 hx
  obtain ⟨hf, hge, hle⟩ := (inRange_iff (by decide) hxf).1 (inRange_fmul_unit hc hxf hx0)
  exact inUnit_iff.2 ⟨hf, hge, hle.trans hx1⟩

theorem inUnit_one_sub {c : F} (hc : inUnit c = true) : inUnit (fsub fone c) = true := by
  obtain ⟨hcf, hc0, hc1⟩ := inUnit_iff.1 hc
  refine inRange_fsub (by decide) (by decide) (by decide) hcf ?_ ?_
  · rw [toUnits_fzero, toUnits_fone]; linarith
  · rw [toUnits_fone]; linarith

/-- R133: `u32_to_unit` gives values of [0, 1]. -/
theorem inUnit_u32ToUnit (v : Word) : inUnit (u32ToUnit v) = true := by
  have hv : v.toNat ≤ 2 ^ 32 - 1 := by have := v.isLt; omega
  refine inRange_withSign (neg := false) (by decide) (by decide) (by decide) rfl ?_ ?_
  · simp
  · rw [toUnits_fone, mul_comm]
    simp only [Bool.false_eq_true, if_false]
    exact_mod_cast Nat.mul_le_mul_left (2 ^ 149) hv

/-! ## The blend of two random values (R135)

`a * (1 - c) + b * c` is at most the sum of the rounded `1 - c` and `c`. That sum can pass 1, by less than 2^-24, the distance
that rounds to 1: `1 - c` is at most its value at the multiple of 2^-24 next below `c`, which is exact. -/

/-- A number of 24 bits times a power of two is the magnitude of a pattern. -/
theorem exists_unitsOf_eq (k : Nat) {t : Nat} (ht : t ≤ 2 ^ 24) : ∃ m, unitsOf m = t * 2 ^ k := by
  induction k generalizing t with
  | zero => exact ⟨_, unitsOf_significand (k := 0) ht (.inl rfl)⟩
  | succ k ih =>
    rcases Nat.lt_or_ge t (2 ^ 23) with hsub | hnorm
    · obtain ⟨m, hm⟩ := ih (t := 2 * t) (by omega)
      exact ⟨m, by rw [hm, pow_succ]; ring⟩
    · exact ⟨_, unitsOf_significand ht (.inr hnorm)⟩

theorem toUnits_withSign_false {m : Nat} (hm : m < 2 ^ 31) : toUnits (withSign false m) = unitsOf m := by
  rw [toUnits, signBit_withSign false hm, magUnits_withSign false hm]
  rfl

/-- A pattern whose magnitude is a given multiple of 2^-24 in [0, 1]. -/
theorem exists_multiple {t : Nat} (ht : t ≤ 2 ^ 24) : ∃ z : F, isFinite z = true ∧ toUnits z = t * 2 ^ 125 := by
  obtain ⟨m, hm⟩ := exists_unitsOf_eq 125 ht
  have hinf : m < infBits := by
    refine lt_of_le_of_lt (b := magBits fone) ?_ (by decide)
    rw [← unitsOf_le_iff, hm]
    calc t * 2 ^ 125 ≤ 2 ^ 24 * 2 ^ 125 := Nat.mul_le_mul_right _ ht
      _ = unitsOf (magBits fone) := by decide
  have hlt : m < 2 ^ 31 := hinf.trans (by decide)
  refine ⟨withSign false m, ?_, ?_⟩
  · rw [isFinite_iff, magBits_withSign false hlt]
    exact hinf
  · rw [toUnits_withSign_false hlt, hm]
    push_cast
    rfl

/-- The rounded `1 - c` and `c` add up to less than 1 + 2^-24. -/
theorem one_sub_add_lt {c : F} (hc : inUnit c = true) : toUnits (fsub fone c) + toUnits c < 2 ^ 149 + 2 ^ 125 := by
  obtain ⟨hcf, hc0, hc1⟩ := inUnit_iff.1 hc
  obtain ⟨t, ht⟩ := Int.eq_ofNat_of_zero_le (Int.ediv_nonneg hc0 (show (0 : Int) ≤ 2 ^ 125 by decide))
  have hlow : (t : Int) * 2 ^ 125 ≤ toUnits c := ht ▸ Int.ediv_mul_le _ (by decide)
  have hupp : toUnits c < (t + 1) * 2 ^ 125 := ht ▸ Int.lt_ediv_add_one_mul_self _ (by decide)
  have ht24 : t ≤ 2 ^ 24 := by omega
  obtain ⟨z, hz, hzu⟩ := exists_multiple (t := 2 ^ 24 - t) (by omega)
  have hle : toUnits (fsub fone c) ≤ toUnits z := by
    refine ((inRange_iff (lo := fzero) (by decide) hz).1 (inRange_fsub (by decide) hz (by decide) hcf ?_ ?_)).2.2
    · rw [toUnits_fzero, toUnits_fone]; linarith
    · rw [toUnits_fone, hzu]; push_cast [ht24]; omega
  rw [hzu] at hle
  push_cast [ht24] at hle
  omega

/-- A sum of units from 0 to 1 + 2^-24, the halfway point above 1, is rounded into [0, 1]. -/
theorem inUnit_roundUnits (zneg : Bool) {n : Int} (h0 : 0 ≤ n) (h1 : n ≤ 2 ^ 149 + 2 ^ 125) :
    inUnit (roundUnits zneg n) = true := by
  rcases le_or_gt n (2 ^ 149) with hn | hn
  · exact inRange_roundUnits zneg (by decide) (by decide) (by rwa [toUnits_fzero]) (by rwa [toUnits_fone])
  · have hup : roundMag n.natAbs 1 ≤ magBits fone :=
      calc roundMag n.natAbs 1 ≤ roundMag (2 ^ 149 + 2 ^ 125) 1 := roundMag_mono one_pos one_pos (by omega)
        _ = magBits fone := by decide
    rw [roundUnits, if_neg (by omega), decide_eq_false (by omega)]
    have hlt := roundMag_lt n.natAbs 1
    refine inUnit_iff.2 ⟨?_, ?_, ?_⟩
    · rw [isFinite_iff, magBits_withSign _ hlt]
      exact hup.trans_lt (by decide)
    · rw [toUnits_withSign_false hlt]
      exact Int.natCast_nonneg _
    · rw [toUnits_withSign_false hlt, ← toUnits_fone, show toUnits fone = unitsOf (magBits fone) from rfl]
      exact_mod_cast unitsOf_le_iff.2 hup

/-- R135: the blend of two values of [0, 1] stays in [0, 1]. -/
theorem inUnit_crossBlend {c a b : F} (hc : inUnit c = true) (ha : inUnit a = true) (hb : inUnit b = true) :
    inUnit (crossBlend c a b) = true := by
  have hd := inUnit_one_sub hc
  obtain ⟨hcf, hc0, -⟩ := inUnit_iff.1 hc
  obtain ⟨hdf, hd0, -⟩ := inUnit_iff.1 hd
  obtain ⟨hpf, hp0, hp⟩ := (inRange_iff (by decide) hdf).1 (inRange_fmul_unit ha hdf hd0)
  obtain ⟨hqf, hq0, hq⟩ := (inRange_iff (by decide) hcf).1 (inRange_fmul_unit hb hcf hc0)
  rw [toUnits_fzero] at hp0 hq0
  have hsum := one_sub_add_lt hc
  rw [crossBlend, fadd_of_isFinite hpf hqf]
  exact inUnit_roundUnits _ (by linarith) (by linarith)

theorem inUnit_of_mem_generateFrom {cfg : Config.Params} {x : BitVec 64} {n : Nat} {v : F}
    (hv : v ∈ generateFrom cfg x n) : inUnit v = true := by
  induction n generalizing x with
  | zero => simp [generateFrom] at hv
  | succ n ih =>
    rcases List.mem_cons.1 hv with rfl | hv
    · exact inUnit_u32ToUnit _
    · exact ih hv

/-- R135: every value of `generateCross` lies in [0, 1], where the cross seed does. -/
theorem inUnit_of_mem_generateCross {cfg : Config.Params} {seed : Word} {c : F} {n : Nat} {v : F} (hc : inUnit c = true)
    (hv : v ∈ generateCross cfg seed c n) : inUnit v = true := by
  obtain ⟨i, hi, rfl⟩ := List.getElem_of_mem hv
  rw [generateCross, List.length_zipWith] at hi
  simp only [generateCross, List.getElem_zipWith]
  exact inUnit_crossBlend hc (inUnit_of_mem_generateFrom (List.getElem_mem _))
    (inUnit_of_mem_generateFrom (List.getElem_mem _))

/-- R348: the cross seed of a side lies in [0, 1], where the parameter does. -/
theorem inUnit_xseedOf (sd : Side) {c : F} (hc : inUnit c = true) : inUnit (xseedOf sd c) = true := by
  have hhalf : inUnit (fmul fhalf c) = true := inUnit_fmul (by decide) hc
  cases sd with
  | R => exact hhalf
  | L => exact inUnit_one_sub hhalf

/-! ## The settings of a stage (R221, R222) -/

/-- R222: a stage factor lies in [0, 2]; the rule's own bounds are 0.85 and 1.15. -/
theorem inRange_stageFactor {r : F} (hr : inUnit r = true) : inRange fzero ftwo (stageFactor r) = true := by
  obtain ⟨hf, h0, h1⟩ := inUnit_iff.1 (inUnit_fmul (c := Config.diffScaleW) (by decide) hr)
  obtain ⟨hlof, hlo0, hlo1⟩ := inUnit_iff.1 (show inUnit Config.diffScaleLo = true by decide)
  refine inRange_fadd (by decide) (by decide) hlof hf ?_ ?_
  · rw [toUnits_fzero]; linarith
  · rw [toUnits_ftwo]; linarith

theorem toUnits_itof_half_apCap : toUnits (itof (Config.apCap / 2 : Nat)) = 9600 * 2 ^ 149 := by decide
theorem toUnits_itof_apCap : toUnits (itof Config.apCap) = 19200 * 2 ^ 149 := by decide
theorem toUnits_itof_longest_stage : toUnits (itof (Config.apCap - 2 : Nat)) = 19198 * 2 ^ 149 := by decide

/-- R223, R29: a legal amount of a diffuser times a stage factor is a legal amount of a stage. -/
theorem modAOk_fmul_stageFactor {a r : F} (ha : modAOk (Config.apCap / 2) a = true) (hr : inUnit r = true) :
    modAOk Config.apCap (fmul a (stageFactor r)) = true := by
  obtain ⟨haf, ha0, ha1⟩ := (inRange_iff (by decide) (by decide)).1 ha
  obtain ⟨hf, h0, h1⟩ := (inRange_iff (by decide) (by decide)).1 (inRange_stageFactor hr)
  rw [toUnits_fzero] at ha0 h0
  rw [toUnits_itof_half_apCap] at ha1
  rw [toUnits_ftwo] at h1
  refine inRange_fmul (by decide) (by decide) haf hf ?_ ?_
  · simpa using mul_nonneg ha0 h0
  · rw [toUnits_itof_apCap]
    calc toUnits a * toUnits (stageFactor r) ≤ (9600 * 2 ^ 149) * 2 ^ 150 := mul_le_mul ha1 h1 h0 (by decide)
      _ = 19200 * 2 ^ 149 * 2 ^ 149 := by norm_num

theorem toUnits_fneg_fhalf : toUnits (fneg fhalf) = -2 ^ 148 := by rw [toUnits_fneg, toUnits_fhalf]

/-- R223, R29: a legal rate of a diffuser times a stage factor is a legal rate of a stage. -/
theorem modROk_fmul_stageFactor {v r : F} (hv : diffModROk v = true) (hr : inUnit r = true) :
    modROk (fmul v (stageFactor r)) = true := by
  obtain ⟨hvf, hv0, hv1⟩ := (inRange_iff (by decide) (by decide)).1 hv
  obtain ⟨hf, h0, h1⟩ := (inRange_iff (by decide) (by decide)).1 (inRange_stageFactor hr)
  rw [toUnits_fneg_fhalf] at hv0
  rw [toUnits_fhalf] at hv1
  rw [toUnits_fzero] at h0
  rw [toUnits_ftwo] at h1
  refine inRange_fmul_of_abs (hi := fone) (by decide) hvf hf (abs_le.2 ⟨hv0, hv1⟩) (abs_le.2 ⟨by linarith, h1⟩) ?_
  rw [toUnits_fone]
  norm_num

/-- Between two tests of a clamp: not below `lo`, and the test against the finite bound `hi` failed, no NaN being left. -/
theorem inRange_of_not_fle {lo hi x : F} (hhi : isFinite hi = true) (hlo : fle lo x = true) (h : ¬ fle hi x = true) :
    inRange lo hi x = true := by
  have hx : isNaN x = false := by
    simp only [fle, Bool.and_eq_true, Bool.not_eq_true'] at hlo
    exact hlo.1.2
  simp only [fle, isNaN_of_isFinite hhi, hx, Bool.not_false, Bool.true_and, decide_eq_true_eq, not_le] at h
  rw [inRange, hlo, Bool.true_and]
  simp only [fle, isNaN_of_isFinite hhi, hx, Bool.not_false, Bool.true_and, decide_eq_true_eq]
  exact h.le

/-- R221: a stage delay is at most the capacity of the stage. -/
theorem stageDelay_le (cfg : Config.Params) (dly : Nat) (r : F) : stageDelay cfg dly r ≤ Config.apCap := by
  unfold stageDelay
  extract_lets x
  split
  · decide
  split
  · decide
  next hone hlong =>
    have hx : inRange fone (itof (Config.apCap - 2 : Nat)) x = true :=
      inRange_of_not_fle (by decide) (by simpa using hone) hlong
    obtain ⟨hxf, -, hle⟩ := (inRange_iff (by decide) (by decide)).1 hx
    rw [toUnits_itof_longest_stage] at hle
    have hfloor := (ftoiFloor_bounds hxf).1
    show (ftoiFloor x).toNat ≤ 19200
    omega

/-! ## The taps (R193, R196) -/

theorem inRange_sat1 (m : F) : inRange fnegOne fone (sat1 m) = true := by
  unfold sat1
  split
  · assumption
  split
  · decide
  split <;> decide

/-- The largest base delay and amount the bounds on the taps allow for, 2^20: more than every capacity. -/
def delayBound : F := 0x49800000#32

theorem toUnits_delayBound : toUnits delayBound = 2 ^ 169 := by decide

/-- The modulation amount of `TAPCALC`, brought below the base delay (R196). -/
def tapAmount (base modA : F) : F := if fle base modA then fsub base fone else modA

/-- The length of the first tap before its floor, brought up to 1 (R196). -/
def tapTotal (sum : F) : F := if !fle fone sum then fone else sum

theorem tapCalc_delayA (cfg : Config.Params) (dly : Nat) (modA phase : F) :
    (tapCalc cfg dly modA phase).delayA =
      (ftoiFloor (tapTotal (fadd (itof dly) (fmul (tapAmount (itof dly) modA)
        (sat1 (cfg.fsin (fmul Config.twoPi phase))))))).toNat := by
  unfold tapCalc tapTotal tapAmount
  rfl

theorem inRange_tapAmount {base a : F} (hb : inRange fzero delayBound base = true)
    (ha : inRange fzero delayBound a = true) : inRange fnegOne delayBound (tapAmount base a) = true := by
  obtain ⟨hbf, hb0, hb1⟩ := (inRange_iff (by decide) (by decide)).1 hb
  obtain ⟨haf, ha0, ha1⟩ := (inRange_iff (by decide) (by decide)).1 ha
  rw [toUnits_fzero] at hb0 ha0
  unfold tapAmount
  split
  · refine inRange_fsub (by decide) (by decide) hbf (by decide) ?_ ?_
    · rw [toUnits_fnegOne, toUnits_fone]; linarith
    · rw [toUnits_fone]; linarith
  · refine (inRange_iff (by decide) (by decide)).2 ⟨haf, ?_, ha1⟩
    rw [toUnits_fnegOne]; linarith

theorem isFinite_tapSum {base a m : F} (hb : inRange fzero delayBound base = true)
    (ha : inRange fnegOne delayBound a = true) (hm : inRange fnegOne fone m = true) :
    isFinite (fadd base (fmul a m)) = true := by
  obtain ⟨hbf, hb0, hb1⟩ := (inRange_iff (by decide) (by decide)).1 hb
  obtain ⟨haf, ha0, ha1⟩ := (inRange_iff (by decide) (by decide)).1 ha
  obtain ⟨hmf, hm0, hm1⟩ := (inRange_iff (by decide) (by decide)).1 hm
  rw [toUnits_fzero] at hb0
  rw [toUnits_fnegOne] at ha0 hm0
  rw [toUnits_fone] at hm1
  rw [toUnits_delayBound] at hb1 ha1
  have hp : inRange (fneg delayBound) delayBound (fmul a m) = true :=
    inRange_fmul_of_abs (by decide) haf hmf (abs_le.2 ⟨by linarith, ha1⟩) (abs_le.2 ⟨hm0, hm1⟩)
      (by rw [toUnits_delayBound])
  obtain ⟨hpf, hp0, hp1⟩ := (inRange_iff (by decide) (by decide)).1 hp
  rw [toUnits_fneg, toUnits_delayBound] at hp0
  rw [toUnits_delayBound] at hp1
  have hsum : inRange (fneg 0x4A000000#32) 0x4A000000#32 (fadd base (fmul a m)) = true := by
    have htwice : toUnits 0x4A000000#32 = 2 ^ 170 := by decide
    refine inRange_fadd (by decide) (by decide) hbf hpf ?_ ?_
    · rw [toUnits_fneg, htwice]; linarith
    · rw [htwice]; linarith
  exact ((inRange_iff (by decide) (by decide)).1 hsum).1

theorem one_le_floor_tapTotal {sum : F} (hs : isFinite sum = true) : 1 ≤ ftoiFloor (tapTotal sum) := by
  have htotal : isFinite (tapTotal sum) = true ∧ 2 ^ 149 ≤ toUnits (tapTotal sum) := by
    unfold tapTotal
    split
    · decide
    · next h =>
      rw [← toUnits_fone, ← fle_iff (by decide) hs]
      exact ⟨hs, by simpa using h⟩
  have hfloor := (ftoiFloor_bounds htotal.1).2
  omega

/-- R196, R31: with a base delay and an amount of a unit of at most 2^20 words, the first tap is at least 1. -/
theorem one_le_tapCalc_delayA (cfg : Config.Params) {cap dly : Nat} {modA : F} (phase : F) (hcap : cap ≤ 2 ^ 20)
    (hdly : dly ≤ cap) (hmod : modAOk cap modA = true) : 1 ≤ (tapCalc cfg dly modA phase).delayA := by
  have hitof : ∀ n ≤ cap, inRange fzero delayBound (itof n) = true := fun n hn => by
    refine inRange_itof (by decide) (by decide) ?_ ?_
    · rw [toUnits_fzero]; positivity
    · rw [toUnits_delayBound]; omega
  obtain ⟨hcf, -, hc⟩ := (inRange_iff (by decide) (by decide)).1 (hitof cap le_rfl)
  obtain ⟨haf, ha0, ha1⟩ := (inRange_iff (by decide) hcf).1 hmod
  have ha : inRange fzero delayBound modA = true := (inRange_iff (by decide) (by decide)).2 ⟨haf, ha0, ha1.trans hc⟩
  have hb := hitof dly hdly
  rw [tapCalc_delayA]
  have := one_le_floor_tapTotal (isFinite_tapSum hb (inRange_tapAmount hb ha)
    (inRange_sat1 (cfg.fsin (fmul Config.twoPi phase))))
  omega

end Sys2Proof.Machine
end

section
/-! The diffusers and the modulated delays in range (spec/10_state.md R29 to R31, spec/44_diffuser.md R223): `Tuned` is what
`Ranged` states together with the registers that the next values derive from, so that every operation of a unit keeps it. -/

namespace Sys2Proof.Machine

/-! ## A modulated delay -/

/-- Base delay, amount and rate are legal for a buffer of `cap` words, and the first tap is at a delay of at least 1. -/
structure ModDelay.Tuned (cap : Nat) (u : ModDelay) : Prop where
  dly : u.dly ≤ cap
  modA : modAOk cap u.modA = true
  modR : modROk u.modR = true
  delayA : 1 ≤ u.taps.delayA

theorem apCap_le : Config.apCap ≤ 2 ^ 20 := by norm_num [Config.apCap]

theorem dlCap_le : Config.dlCap ≤ 2 ^ 20 := by norm_num [Config.dlCap]

theorem ModDelay.tuned_withTaps {cap : Nat} {u : ModDelay} {t : Taps} (hdly : u.dly ≤ cap)
    (hmodA : modAOk cap u.modA = true) (hmodR : modROk u.modR = true) (ht : 1 ≤ t.delayA) :
    ({ u with taps := t } : ModDelay).Tuned cap :=
  ⟨hdly, hmodA, hmodR, ht⟩

/-- `TAPCALC` brings the first tap to a delay of at least 1, whatever it was before (R196). -/
theorem ModDelay.tuned_retap (cfg : Config.Params) {cap : Nat} {u : ModDelay} (hcap : cap ≤ 2 ^ 20) (hdly : u.dly ≤ cap)
    (hmodA : modAOk cap u.modA = true) (hmodR : modROk u.modR = true) : (u.retap cfg).Tuned cap :=
  ModDelay.tuned_withTaps hdly hmodA hmodR (one_le_tapCalc_delayA cfg u.phase hcap hdly hmodA)

section
variable {cfg : Config.Params} {cap : Nat} {u : ModDelay}

theorem le_of_delayOk {n : Nat} (h : delayOk cap n = true) : n ≤ cap := by
  simp only [delayOk, Bool.and_eq_true, decide_eq_true_eq] at h
  omega

theorem ModDelay.Tuned.tick (h : u.Tuned cap) (hcap : cap ≤ 2 ^ 20) : (u.tick cfg).Tuned cap := by
  unfold ModDelay.tick
  split
  · obtain ⟨hdly, hmodA, hmodR, hdelayA⟩ :=
      ModDelay.tuned_retap cfg (u := u.modUpdate) hcap h.dly h.modA h.modR
    exact ⟨hdly, hmodA, hmodR, hdelayA⟩
  · exact h

theorem ModDelay.Tuned.setDly (h : u.Tuned cap) (hcap : cap ≤ 2 ^ 20) {n : Nat} (hn : delayOk cap n = true) :
    (u.setDly cfg n).Tuned cap :=
  ModDelay.tuned_retap cfg hcap (le_of_delayOk hn) h.modA h.modR

theorem ModDelay.Tuned.setModA (h : u.Tuned cap) (hcap : cap ≤ 2 ^ 20) {a : F} (ha : modAOk cap a = true) :
    (u.setModA cfg a).Tuned cap :=
  ModDelay.tuned_retap cfg hcap h.dly ha h.modR

theorem ModDelay.Tuned.setModR (h : u.Tuned cap) {r : F} (hr : modROk r = true) : (u.setModR r).Tuned cap :=
  ⟨h.dly, h.modA, hr, h.delayA⟩

theorem ModDelay.Tuned.clear (h : u.Tuned cap) : (u.clear cap).Tuned cap := ⟨h.dly, h.modA, h.modR, h.delayA⟩

theorem ModDelay.Tuned.step (h : u.Tuned Config.dlCap) (v : F) : (mdlyStep cfg u v).2.Tuned Config.dlCap := by
  have hw : ({ u with buf := memWrite u.buf u.widx v } : ModDelay).Tuned Config.dlCap :=
    ⟨h.dly, h.modA, h.modR, h.delayA⟩
  obtain ⟨hdly, hmodA, hmodR, hdelayA⟩ := hw.tick (cfg := cfg) dlCap_le
  exact ⟨hdly, hmodA, hmodR, hdelayA⟩

end

/-- The three settings of `ApplyConfig` bring any MDLY in range, a blank one included (R363, R430). -/
theorem tuned_applyDelay (cfg : Config.Params) (u : ModDelay) {k : Config.DelayConfig} (hk : LegalDelayConfig k) :
    (applyDelay cfg u k).Tuned Config.dlCap where
  dly := le_of_delayOk hk.dly
  modA := hk.modA
  modR := hk.modR
  delayA := one_le_tapCalc_delayA cfg u.phase dlCap_le (le_of_delayOk hk.dly) hk.modA

/-! ## An all-pass stage -/

section
variable {cfg : Config.Params} {u : Allpass}

theorem Allpass.tuned_read (h : u.core.Tuned Config.apCap) : (u.read cfg).2.Tuned Config.apCap := by
  unfold Allpass.read
  split
  · obtain ⟨hdly, hmodA, hmodR, hdelayA⟩ := h.tick (cfg := cfg) apCap_le
    exact ⟨hdly, hmodA, hmodR, hdelayA⟩
  · exact h

theorem Allpass.tuned_step (h : u.core.Tuned Config.apCap) (v : F) : (mapStep cfg u v).2.core.Tuned Config.apCap := by
  obtain ⟨hdly, hmodA, hmodR, hdelayA⟩ := Allpass.tuned_read (cfg := cfg) h
  exact ⟨hdly, hmodA, hmodR, hdelayA⟩

theorem Allpass.ranged_of_tuned (h : u.core.Tuned Config.apCap) : u.Ranged := ⟨h.modA, h.modR, h.delayA⟩

end

/-! ## A diffuser -/

/-- The registers that `DIFF_update` derives the stages from are legal, and the random values drawn before lie in [0, 1]. -/
structure Diffuser.Ready (d : Diffuser) : Prop where
  modA : modAOk (Config.apCap / 2) d.modA = true
  modR : diffModROk d.modR = true
  xseed : inUnit d.xseed = true
  seedV_wf : Memory.wf d.seedV = true
  seedV : ∀ i, inUnit (memRead d.seedV i) = true

/-- The registers are legal and the stages in range. -/
structure Diffuser.Tuned (d : Diffuser) : Prop where
  ready : d.Ready
  stage : ∀ k : Fin 12, d.stage[k].core.Tuned Config.apCap

theorem Diffuser.Tuned.ranged {d : Diffuser} (h : d.Tuned) : d.Ranged :=
  ⟨h.ready.seedV, fun k => Allpass.ranged_of_tuned (h.stage k)⟩

theorem Diffuser.tuned_of_legal {d : Diffuser} (hl : d.Legal) (hr : d.Ranged) : d.Tuned where
  ready := ⟨hl.modA, hl.modR, hl.xseed, hl.seedV_wf, hr.seedV⟩
  stage k := by
    have hdly := (hl.stage k).core.dly_le
    exact ⟨by omega, (hr.stage k).modA, (hr.stage k).modR, (hr.stage k).delayA⟩

section
variable {cfg : Config.Params} {d : Diffuser}

theorem Diffuser.Ready.withSeedV (h : d.Ready) {m : Mem} (hwf : Memory.wf m = true)
    (hm : ∀ i, inUnit (memRead m i) = true) : ({ d with seedV := m } : Diffuser).Ready :=
  ⟨h.modA, h.modR, h.xseed, hwf, hm⟩

/-- Values of [0, 1] written over values of [0, 1]. -/
theorem inUnit_memWriteList {m : Mem} (hwf : Memory.wf m = true) (hm : ∀ i, inUnit (memRead m i) = true) (a : Nat)
    {vs : List Word} (hvs : ∀ v ∈ vs, inUnit v = true) (i : Nat) : inUnit (memRead (memWriteList m a vs) i) = true := by
  rw [memRead_memWriteList hwf]
  split
  · cases hv : vs[i - a]? with
    | none => exact hm i
    | some v => exact hvs v (List.mem_of_getElem? hv)
  · exact hm i

/-- New random values lie in [0, 1] and the others are as before. -/
theorem Diffuser.Ready.draw (h : d.Ready) : (d.draw cfg).Ready :=
  h.withSeedV (wf_memWriteList h.seedV_wf _ _)
    (inUnit_memWriteList h.seedV_wf h.seedV _ fun _ hv => inUnit_of_mem_generateCross h.xseed hv)

theorem Diffuser.Ready.deriveStage (h : d.Ready) (k : Nat) (s : Allpass) :
    (deriveStage cfg d k s).core.Tuned Config.apCap :=
  ModDelay.tuned_retap cfg apCap_le (stageDelay_le _ _ _) (modAOk_fmul_stageFactor h.modA (h.seedV _))
    (modROk_fmul_stageFactor h.modR (h.seedV _))

theorem Diffuser.Ready.withStage (h : d.Ready) (v : Vector Allpass 12) : ({ d with stage := v } : Diffuser).Ready :=
  ⟨h.modA, h.modR, h.xseed, h.seedV_wf, h.seedV⟩

theorem Diffuser.Ready.tuned_deriveStages (h : d.Ready) : (d.deriveStages cfg).Tuned where
  ready := h.withStage _
  stage k := by
    rw [Diffuser.deriveStages_stage]
    exact h.deriveStage _ _

/-- R223: `DIFF_update` brings every stage in range, whatever it was before. -/
theorem Diffuser.Ready.update (h : d.Ready) : (d.update cfg).Tuned := h.draw.tuned_deriveStages

theorem Diffuser.Ready.setStages (h : d.Ready) (n : Nat) : (d.setStages n).Ready :=
  ⟨h.modA, h.modR, h.xseed, h.seedV_wf, h.seedV⟩

theorem Diffuser.Ready.setDly (h : d.Ready) (n : Nat) : (d.setDly cfg n).Tuned :=
  Diffuser.Ready.update ⟨h.modA, h.modR, h.xseed, h.seedV_wf, h.seedV⟩

theorem Diffuser.Ready.setModA (h : d.Ready) {a : F} (ha : modAOk (Config.apCap / 2) a = true) :
    (d.setModA cfg a).Tuned :=
  Diffuser.Ready.update ⟨ha, h.modR, h.xseed, h.seedV_wf, h.seedV⟩

theorem Diffuser.Ready.setModR (h : d.Ready) {r : F} (hr : diffModROk r = true) : (d.setModR cfg r).Tuned :=
  Diffuser.Ready.update ⟨h.modA, hr, h.xseed, h.seedV_wf, h.seedV⟩

theorem Diffuser.Ready.setSeed (h : d.Ready) (seed : Word) : (d.setSeed cfg seed).Tuned :=
  Diffuser.Ready.update ⟨h.modA, h.modR, h.xseed, h.seedV_wf, h.seedV⟩

theorem Diffuser.Ready.setX (h : d.Ready) {c : F} (hc : inUnit c = true) : (d.setX cfg c).Tuned :=
  Diffuser.Ready.update ⟨h.modA, h.modR, hc, h.seedV_wf, h.seedV⟩

theorem Diffuser.Tuned.setStages (h : d.Tuned) (n : Nat) : (d.setStages n).Tuned := ⟨h.ready.setStages n, h.stage⟩

/-- The same operation on all 12 stages. -/
theorem Diffuser.Tuned.mapStages (h : d.Tuned) {f : Allpass → Allpass}
    (hf : ∀ a, a.core.Tuned Config.apCap → (f a).core.Tuned Config.apCap) (k : Fin 12) :
    (vecMap f d.stage)[k].core.Tuned Config.apCap := by
  rw [getElem_vecMap]
  exact hf _ (h.stage k)

/-- Registers that no random value or stage setting derives from. -/
theorem Diffuser.Ready.withFbFlags (h : d.Ready) (g : F) (b : BitVec 2) (v : Vector Allpass 12) :
    ({ d with fb := g, flags := b, stage := v } : Diffuser).Ready :=
  ⟨h.modA, h.modR, h.xseed, h.seedV_wf, h.seedV⟩

theorem Diffuser.Tuned.setFb (h : d.Tuned) (g : F) : (d.setFb g).Tuned :=
  ⟨h.ready.withFbFlags g d.flags _, h.mapStages fun _ ha => ha⟩

theorem Diffuser.Tuned.setInterp (h : d.Tuned) (b : Bool) : (d.setInterp b).Tuned :=
  ⟨h.ready.withFbFlags d.fb _ _, h.mapStages fun _ ha => ha⟩

theorem Diffuser.Tuned.setModEn (h : d.Tuned) (b : Bool) : (d.setModEn b).Tuned :=
  ⟨h.ready.withFbFlags d.fb _ _, h.mapStages fun _ ha => ha⟩

theorem Diffuser.Tuned.clear (h : d.Tuned) : d.clear.Tuned :=
  ⟨h.ready.withStage _, h.mapStages fun _ ha => ha.clear⟩

theorem Diffuser.Tuned.setStage (h : d.Tuned) (k : Fin 12) {a : Allpass} (ha : a.core.Tuned Config.apCap) :
    (d.setStage k a).Tuned where
  ready := h.ready.withStage _
  stage j := by
    rw [Diffuser.setStage_stage, vec_set_get]
    split
    · exact ha
    · exact h.stage j

/-- The eight settings of `ApplyConfig` bring a diffuser in range (R363). -/
theorem Diffuser.Ready.apply (h : d.Ready) {k : Config.DiffuserConfig} (hk : LegalDiffuserConfig k) :
    (applyDiffuser cfg d k).Tuned := by
  have h1 : (((d.setStages k.stages).setDly cfg k.dly).setFb k.fb).Tuned := ((h.setStages _).setDly _).setFb _
  exact ((((h1.ready.setModA hk.modA).ready.setModR hk.modR).ready.setSeed k.seed).setInterp k.interp).setModEn k.modEn

/-- What the cascade carries from stage to stage: the stages are in range (R235). -/
theorem tuned_cascadeStage {stages : Nat} {acc : F × Vector Allpass 12}
    (h : ∀ j : Fin 12, acc.2[j].core.Tuned Config.apCap) (k j : Fin 12) :
    (cascadeStage cfg stages acc k).2[j].core.Tuned Config.apCap := by
  unfold cascadeStage
  split
  · show (acc.2.set k (mapStep cfg acc.2[k] acc.1).2)[j].core.Tuned Config.apCap
    rw [vec_set_get]
    split
    · exact Allpass.tuned_step (h k) _
    · exact h j
  · exact h j

theorem Diffuser.Tuned.step (h : d.Tuned) (v : F) : (diffStep cfg d v).2.Tuned where
  ready := h.ready.withStage _
  stage := List.foldlRecOn (motive := fun acc : F × Vector Allpass 12 => ∀ j : Fin 12, acc.2[j].core.Tuned Config.apCap)
    idx12 (cascadeStage cfg d.stages) h.stage fun _ hacc k _ => tuned_cascadeStage hacc k

end

/-! ## A delay line -/

/-- The main delay and the diffuser of a line are in range. -/
structure DelayLine.Tuned (l : DelayLine) : Prop where
  delay : l.delay.Tuned Config.dlCap
  df : l.df.Tuned

section
variable {cfg : Config.Params} {l : DelayLine}

theorem DelayLine.Tuned.pop (h : l.Tuned) : l.pop.2.Tuned := by
  unfold DelayLine.pop
  split
  · exact ⟨h.delay, h.df⟩
  · exact h

theorem DelayLine.Tuned.push (h : l.Tuned) (v : F) : (l.push v).Tuned := by
  unfold DelayLine.push
  split
  · exact ⟨h.delay, h.df⟩
  · exact h

theorem DelayLine.Tuned.popN (h : l.Tuned) (n : Nat) : (DelayLine.popN n l).2.Tuned := by
  induction n generalizing l with
  | zero => exact h
  | succ n ih => exact ih h.pop

theorem DelayLine.Tuned.pushAll (h : l.Tuned) (vs : List F) : (l.pushAll vs).Tuned :=
  List.foldlRecOn (motive := DelayLine.Tuned) vs DelayLine.push h fun _ hl v _ => hl.push v

theorem DelayLine.Tuned.viaDiffuser (h : l.Tuned) (y : F) : (l.viaDiffuser cfg y).2.Tuned := by
  unfold DelayLine.viaDiffuser
  split
  · exact ⟨h.delay, h.df.step y⟩
  · exact h

theorem DelayLine.Tuned.viaLowShelf (h : l.Tuned) (y : F) : (l.viaLowShelf y).2.Tuned := by
  unfold DelayLine.viaLowShelf
  split
  · exact ⟨h.delay, h.df⟩
  · exact h

theorem DelayLine.Tuned.viaHighShelf (h : l.Tuned) (y : F) : (l.viaHighShelf y).2.Tuned := by
  unfold DelayLine.viaHighShelf
  split
  · exact ⟨h.delay, h.df⟩
  · exact h

theorem DelayLine.Tuned.viaDamping (h : l.Tuned) (y : F) : (l.viaDamping cfg y).2.Tuned := by
  unfold DelayLine.viaDamping
  split
  · exact ⟨h.delay, h.df⟩
  · exact h

theorem DelayLine.Tuned.withDelay (h : l.Tuned) {u : ModDelay} (hu : u.Tuned Config.dlCap) :
    ({ l with delay := u } : DelayLine).Tuned := ⟨hu, h.df⟩

theorem DelayLine.Tuned.sample (h : l.Tuned) (x fbv : F) : (l.sample cfg x fbv).2.2.Tuned :=
  ((((h.withDelay (h.delay.step _)).viaDiffuser _).viaLowShelf _).viaHighShelf _).viaDamping _

theorem DelayLine.Tuned.samples (h : l.Tuned) (xs : List (F × F)) : (l.samples cfg xs).2.2.Tuned := by
  induction xs generalizing l with
  | nil => exact h
  | cons x xs ih => exact ih (h.sample x.1 x.2)

theorem DelayLine.Tuned.proc (h : l.Tuned) (x : List F) : (dlineProc cfg l x).2.Tuned :=
  ((h.popN _).samples _).pushAll _

theorem DelayLine.Tuned.setFb (h : l.Tuned) (g : F) : (l.setFb g).Tuned := ⟨h.delay, h.df⟩

theorem DelayLine.Tuned.setFlags (h : l.Tuned) (m : BitVec 5) : (l.setFlags m).Tuned := ⟨h.delay, h.df⟩

theorem DelayLine.Tuned.clear (h : l.Tuned) : l.clear.Tuned := ⟨h.delay.clear, h.df.clear⟩

theorem tuned_applyLine (h : l.df.Ready) {k : Config.LineConfig} (hk : LegalLineConfig k) : (applyLine cfg l k).Tuned :=
  ⟨tuned_applyDelay cfg l.delay hk.delay, h.apply hk.df⟩

end

/-! ## A channel -/

/-- The pre-delay, the early diffuser and the lines of a channel are in range. -/
structure Channel.Tuned (c : Channel) : Prop where
  pre : c.pre.Tuned Config.dlCap
  ed : c.ed.Tuned
  line : ∀ j : Fin 12, c.line[j].Tuned

/-- Every diffuser of a channel is ready for `DIFF_update`. -/
structure Channel.Ready (c : Channel) : Prop where
  ed : c.ed.Ready
  df : ∀ j : Fin 12, c.line[j].df.Ready

section
variable {cfg : Config.Params} {c : Channel}

theorem Channel.Tuned.ready (h : c.Tuned) : c.Ready := ⟨h.ed.ready, fun j => (h.line j).df.ready⟩

theorem Channel.Tuned.viaHighPass (h : c.Tuned) (a : F) : (c.viaHighPass cfg a).2.Tuned := by
  unfold Channel.viaHighPass
  split
  · exact ⟨h.pre, h.ed, h.line⟩
  · exact h

theorem Channel.Tuned.viaLowPass (h : c.Tuned) (a : F) : (c.viaLowPass cfg a).2.Tuned := by
  unfold Channel.viaLowPass
  split
  · exact ⟨h.pre, h.ed, h.line⟩
  · exact h

theorem Channel.Tuned.viaPreDelay (h : c.Tuned) (a : F) : (c.viaPreDelay cfg a).2.Tuned :=
  ⟨h.pre.step a, h.ed, h.line⟩

theorem Channel.Tuned.viaMultitap (h : c.Tuned) (e : F) : (c.viaMultitap cfg e).2.Tuned := by
  unfold Channel.viaMultitap
  split
  · exact ⟨h.pre, h.ed, h.line⟩
  · exact h

theorem Channel.Tuned.viaEarlyDiffuser (h : c.Tuned) (e : F) : (c.viaEarlyDiffuser cfg e).2.Tuned := by
  unfold Channel.viaEarlyDiffuser
  split
  · exact ⟨h.pre, h.ed.step e, h.line⟩
  · exact h

theorem Channel.Tuned.earlySample (h : c.Tuned) (x : F) :
    (chanEarly cfg (chanInput cfg c x).2 (chanInput cfg c x).1).2.Tuned :=
  ((((h.viaHighPass _).viaLowPass _).viaPreDelay _).viaMultitap _).viaEarlyDiffuser _

theorem Channel.Tuned.earlyBlock (h : c.Tuned) (xs : List F) : (chanEarlyBlock cfg c xs).2.Tuned := by
  induction xs generalizing c with
  | nil => exact h
  | cons x xs ih => exact ih (h.earlySample x)

theorem tuned_chanLine {lines : Nat} {e : List F} {acc : List F × Vector DelayLine 12}
    (h : ∀ j : Fin 12, acc.2[j].Tuned) (k j : Fin 12) : (chanLine cfg lines e acc k).2[j].Tuned := by
  unfold chanLine
  split
  · show (acc.2.set k (dlineProc cfg acc.2[k] e).2)[j].Tuned
    rw [vec_set_get]
    split
    · exact (h k).proc e
    · exact h j
  · exact h j

theorem Channel.Tuned.lines (h : c.Tuned) (e : List F) : (chanLines cfg c e).2.Tuned where
  pre := h.pre
  ed := h.ed
  line := List.foldlRecOn (motive := fun acc : List F × Vector DelayLine 12 => ∀ j : Fin 12, acc.2[j].Tuned)
    idx12 (chanLine cfg c.lines e) h.line fun _ hacc k _ => tuned_chanLine hacc k

theorem Channel.Tuned.proc (h : c.Tuned) (x : List F) : (chanProc cfg c x).2.Tuned := (h.earlyBlock x).lines _

theorem Channel.Tuned.setInMix (h : c.Tuned) (g : F) : (c.setInMix g).Tuned := ⟨h.pre, h.ed, h.line⟩

theorem Channel.Tuned.setFlags (h : c.Tuned) (m : BitVec 4) : (c.setFlags m).Tuned := ⟨h.pre, h.ed, h.line⟩

theorem Channel.Tuned.setLines (h : c.Tuned) (n : Nat) : (c.setLines n).Tuned := ⟨h.pre, h.ed, h.line⟩

theorem Channel.Tuned.setDry (h : c.Tuned) (g : F) : (c.setDry g).Tuned := ⟨h.pre, h.ed, h.line⟩

theorem Channel.Tuned.setEarly (h : c.Tuned) (g : F) : (c.setEarly g).Tuned := ⟨h.pre, h.ed, h.line⟩

theorem Channel.Tuned.setLineOut (h : c.Tuned) (g : F) : (c.setLineOut g).Tuned := ⟨h.pre, h.ed, h.line⟩

theorem Channel.Tuned.mapLines (h : c.Tuned) {f : DelayLine → DelayLine} (hf : ∀ l, l.Tuned → (f l).Tuned) (j : Fin 12) :
    (vecMap f c.line)[j].Tuned := by
  rw [getElem_vecMap]
  exact hf _ (h.line j)

theorem Channel.Tuned.setLine (h : c.Tuned) (j : Fin 12) {l : DelayLine} (hl : l.Tuned) : (c.setLine j l).Tuned where
  pre := h.pre
  ed := h.ed
  line k := by
    rw [Channel.setLine_line, vec_set_get]
    split
    · exact hl
    · exact h.line k

theorem Channel.Tuned.setDecay (h : c.Tuned) (t : F) : (c.setDecay cfg t).Tuned :=
  ⟨h.pre, h.ed, h.mapLines fun _ hl => hl.setFb _⟩

theorem Channel.Tuned.setX (h : c.Tuned) {x : F} (hx : inUnit x = true) : (c.setX cfg x).Tuned :=
  ⟨h.pre, h.ed.ready.setX hx, h.mapLines fun _ hl => ⟨hl.delay, hl.df.ready.setX hx⟩⟩

theorem Channel.Tuned.clear (h : c.Tuned) : c.clear.Tuned :=
  ⟨h.pre.clear, h.ed.clear, h.mapLines fun _ hl => hl.clear⟩

/-- R363: `ApplyConfig` of a legal record brings a channel in range, a blank one included (R430). -/
theorem Channel.Ready.apply (h : c.Ready) {k : Config.ChannelConfig} (hk : LegalConfig k) :
    (applyConfig cfg c k).Tuned := by
  have hbelow : (applyBelow cfg c k).Tuned := by
    refine ⟨tuned_applyDelay cfg c.pre hk.pre, h.ed.apply hk.ed, fun j => ?_⟩
    simp only [applyBelow, getElem_vecOf12]
    exact tuned_applyLine (h.df j) (hk.line j)
  exact (hbelow.setX hk.xseed).setDecay _

theorem blankDiffuser_ready : blankDiffuser.Ready :=
  ⟨by decide, by decide, by decide, rfl, fun i => by rw [show blankDiffuser.seedV = [] from rfl, memRead_nil]; decide⟩

theorem blankChannel_ready : blankChannel.Ready where
  ed := blankDiffuser_ready
  df j := by
    simp only [blankChannel, getElem_vecOf12]
    exact blankDiffuser_ready

end

end Sys2Proof.Machine
end

section
/-! `DERIVE` gives a legal record (spec/49_engine.md R361, R362 (a), (e); log entry 4). -/

namespace Sys2Proof.Machine

/-- A field after its check is legal, if its replacement is. -/
theorem legalOr_ok {α : Type} (ok : α → Bool) (v : α) {d : α} (hd : ok d = true) : ok (legalOr (ok v) v d) = true := by
  unfold legalOr
  split
  · assumption
  · exact hd

theorem isFinite_legalFinite (v : F) : isFinite (legalFinite v) = true := legalOr_ok isFinite v (by decide)

theorem inRange_legalGain (g : F) : inRange 0xC2700000#32 0x42700000#32 (legalGain g) = true :=
  legalOr_ok (inRange (fneg Config.shelfGainLim) Config.shelfGainLim) g (by decide)

theorem legalDelay_legal (k : Config.DelayConfig) : LegalDelayConfig (legalDelay k) where
  dly := legalOr_ok (delayOk Config.dlCap) k.dly (by decide)
  modA := legalOr_ok (modAOk Config.dlCap) k.modA (by decide)
  modR := legalOr_ok modROk k.modR (by decide)

theorem legalDiffuser_legal (k : Config.DiffuserConfig) : LegalDiffuserConfig (legalDiffuser k) where
  stages := legalOr_ok stagesOk k.stages (by decide)
  dly := legalOr_ok (delayOk Config.apCap) k.dly (by decide)
  fb := isFinite_legalFinite k.fb
  modA := legalOr_ok (modAOk (Config.apCap / 2)) k.modA (by decide)
  modR := legalOr_ok diffModROk k.modR (by decide)

theorem legalLine_legal (k : Config.LineConfig) : LegalLineConfig (legalLine k) where
  delay := legalDelay_legal k.delay
  df := legalDiffuser_legal k.df
  lsF := isFinite_legalFinite k.lsF
  lsG := inRange_legalGain k.lsG
  hsF := isFinite_legalFinite k.hsF
  hsG := inRange_legalGain k.hsG
  dampFc := isFinite_legalFinite k.dampFc

theorem legalChannel_legal {x inputMix : F} (hx : inUnit x = true) (hm : isFinite inputMix = true)
    (k : Config.ChannelConfig) : LegalConfig (legalChannel x inputMix k) where
  inMix := hm
  dry := isFinite_legalFinite k.dry
  early := isFinite_legalFinite k.early
  lineOut := isFinite_legalFinite k.lineOut
  lines := legalOr_ok linesOk k.lines (by decide)
  decayT := legalOr_ok (inRange decayMin decayMax) k.decayT (by decide)
  xseed := hx
  hpFc := isFinite_legalFinite k.hpFc
  lpFc := isFinite_legalFinite k.lpFc
  pre := legalDelay_legal k.pre
  taps := legalOr_ok tapsOk k.mt.taps (by decide)
  len := legalOr_ok lenOk k.mt.len (by decide)
  decay := legalOr_ok inUnit k.mt.decay (by decide)
  ed := legalDiffuser_legal k.ed
  line j := by
    simp only [legalChannel, getElem_vecMap]
    exact legalLine_legal _

/-- R362 (a), (e): the record of either side is legal, whatever the free function is, for a cross seed in [0, 1]. -/
theorem deriveConfig_legal (cfg : Config.Params) {p : Vector F 10} {inputMix : F} (sd : Side)
    (hp : inUnit p[(7 : Fin 10)] = true) (hm : isFinite inputMix = true) : LegalConfig (deriveConfig cfg p inputMix sd) :=
  legalChannel_legal (inUnit_xseedOf sd hp) hm _

end Sys2Proof.Machine
end

section
/-! What a command does to a property of the state that a fault keeps: it is enough to look at the command's effect on its
own unit (spec/30_encoding.md R110 (3) to (5), spec/60_exceptions.md R402). -/

namespace Sys2Proof.Machine

/-- Every next state that the outcome can be satisfies `P`. -/
def Leads (P : State → Prop) (o : Out) : Prop := ∀ t, o = .next t → P t

theorem leads_next {P : State → Prop} {t : State} (h : P t) : Leads P (.next t) := by
  rintro _ ⟨⟩
  exact h

section
variable {P : State → Prop} {s : State} {u : UnitAddr}

theorem leads_check {ok : Bool} {c : FaultCause} {k : Out} (hf : ∀ c, P (s.raise c)) (hk : ok = true → Leads P k) :
    Leads P (check ok c s k) := fun t h => by
  obtain ⟨hok, h⟩ | ⟨-, rfl⟩ := check_cases h
  · exact hk hok t h
  · exact hf _

theorem leads_onPortA {k : Out} (hf : ∀ c, P (s.raise c)) (hk : Leads P k) : Leads P (onPortA s k) := fun t h => by
  obtain ⟨-, h⟩ | ⟨-, rfl⟩ := onPortA_cases h
  · exact hk t h
  · exact hf _

theorem leads_onRng {k : Out} (hf : ∀ c, P (s.raise c)) (hk : Leads P k) : Leads P (onRng u s k) := fun t h => by
  obtain ⟨-, -, h⟩ | rfl | rfl := onRng_cases h
  exacts [hk t h, hf _, hf _]

theorem leads_onRbuf {k : Out} (hf : ∀ c, P (s.raise c)) (hk : Leads P k) : Leads P (onRbuf u s k) := fun t h => by
  obtain ⟨-, -, h⟩ | rfl | rfl := onRbuf_cases h
  exacts [hk t h, hf _, hf _]

theorem leads_onLp1 {k : Lp1Ref → Out} (hf : ∀ c, P (s.raise c)) (hk : ∀ r, Leads P (k r)) : Leads P (onLp1 u s k) :=
  fun t h => by
  obtain ⟨-, r, -, h⟩ | rfl | rfl := onLp1_cases h
  exacts [hk r t h, hf _, hf _]

theorem leads_onHp1 {k : Side → Out} (hf : ∀ c, P (s.raise c)) (hk : ∀ sd, Leads P (k sd)) : Leads P (onHp1 u s k) :=
  fun t h => by
  obtain ⟨-, sd, -, h⟩ | rfl | rfl := onHp1_cases h
  exacts [hk sd t h, hf _, hf _]

theorem leads_onShelf {k : ShelfRef → Out} (hf : ∀ c, P (s.raise c)) (hk : ∀ r, Leads P (k r)) :
    Leads P (onShelf u s k) := fun t h => by
  obtain ⟨-, r, -, h⟩ | rfl | rfl := onShelf_cases h
  exacts [hk r t h, hf _, hf _]

theorem leads_onMap {k : MapRef → Out} (hf : ∀ c, P (s.raise c)) (hk : ∀ r, Leads P (k r)) : Leads P (onMap u s k) :=
  fun t h => by
  obtain ⟨-, r, -, h⟩ | rfl | rfl := onMap_cases h
  exacts [hk r t h, hf _, hf _]

theorem leads_onDiff {k : DiffRef → Out} (hf : ∀ c, P (s.raise c)) (hk : ∀ r, Leads P (k r)) : Leads P (onDiff u s k) :=
  fun t h => by
  obtain ⟨-, r, -, h⟩ | rfl | rfl := onDiff_cases h
  exacts [hk r t h, hf _, hf _]

theorem leads_onMdly {k : MdlyRef → Out} (hf : ∀ c, P (s.raise c)) (hk : ∀ r, Leads P (k r)) : Leads P (onMdly u s k) :=
  fun t h => by
  obtain ⟨-, r, -, h⟩ | rfl | rfl := onMdly_cases h
  exacts [hk r t h, hf _, hf _]

theorem leads_onMtap {k : Side → Out} (hf : ∀ c, P (s.raise c)) (hk : ∀ sd, Leads P (k sd)) : Leads P (onMtap u s k) :=
  fun t h => by
  obtain ⟨-, sd, -, h⟩ | rfl | rfl := onMtap_cases h
  exacts [hk sd t h, hf _, hf _]

theorem leads_onLine {k : Side → Fin 12 → Out} (hf : ∀ c, P (s.raise c)) (hk : ∀ sd j, Leads P (k sd j)) :
    Leads P (onLine u s k) := fun t h => by
  obtain ⟨-, sd, j, -, h⟩ | rfl | rfl := onLine_cases h
  exacts [hk sd j t h, hf _, hf _]

theorem leads_onChan {k : Side → Out} (hf : ∀ c, P (s.raise c)) (hk : ∀ sd, Leads P (k sd)) : Leads P (onChan u s k) :=
  fun t h => by
  obtain ⟨-, sd, -, h⟩ | rfl | rfl := onChan_cases h
  exacts [hk sd t h, hf _, hf _]

theorem leads_onIo {k : Fin 4 → Out} (hf : ∀ c, P (s.raise c)) (hk : ∀ b, Leads P (k b)) : Leads P (onIo u s k) :=
  fun t h => by
  obtain ⟨-, b, -, h⟩ | rfl | rfl := onIo_cases h
  exacts [hk b t h, hf _, hf _]

theorem leads_onFn {k : Out} (hf : ∀ c, P (s.raise c)) (hk : Leads P k) : Leads P (onFn u s k) := fun t h => by
  obtain ⟨-, -, h⟩ | rfl | rfl := onFn_cases h
  exacts [hk t h, hf _, hf _]

theorem leads_onEngAny {k : Out} (hf : ∀ c, P (s.raise c)) (hk : Leads P k) : Leads P (onEngAny u s k) := fun t h => by
  obtain ⟨-, h⟩ | rfl := onEngAny_cases h
  exacts [hk t h, hf _]

theorem leads_onEng {k : Out} (hf : ∀ c, P (s.raise c)) (hk : Leads P k) : Leads P (onEng u s k) :=
  leads_onPortA hf (leads_onEngAny hf hk)

theorem leads_onRegs {k : UnitRef → Out} (hf : ∀ c, P (s.raise c)) (hk : ∀ r, Leads P (k r)) : Leads P (onRegs u s k) :=
  fun t h => by
  obtain ⟨r, -, -, h⟩ | rfl := onRegs_cases h
  exacts [hk r t h, hf _]

theorem leads_onMems {k : UnitRef → Out} (hf : ∀ c, P (s.raise c)) (hk : ∀ r, Leads P (k r)) : Leads P (onMems u s k) :=
  fun t h => by
  obtain ⟨-, r, -, -, h⟩ | rfl | rfl := onMems_cases h
  exacts [hk r t h, hf _, hf _]

theorem leads_putRead {v : Option Word} (hf : ∀ c, P (s.raise c)) (hr : ∀ w, P (s.setRes w)) : Leads P (putRead s v) :=
  fun t h => by
  obtain ⟨w, -, rfl⟩ | ⟨-, rfl⟩ := putRead_cases h
  exacts [hr w, hf _]

end

end Sys2Proof.Machine
end

section
/-! Every command keeps the diffusers and the delays in range (spec/10_state.md R29 to R31), one arm per command. -/

namespace Sys2Proof.Machine

/-! ## The state -/

/-- Both channels are in range. -/
def State.Tuned (s : State) : Prop := ∀ sd, (s.chan sd).Tuned

theorem State.Tuned.ranged {s : State} (h : s.Tuned) : s.Ranged where
  ed sd := (h sd).ed.ranged
  df sd j := ((h sd).line j).df.ranged
  pre sd := (h sd).pre.delayA
  delay sd j := ((h sd).line j).delay.delayA

theorem ModDelay.tuned_of_legal {u : ModDelay} (hl : u.LegalDelay) (hd : 1 ≤ u.taps.delayA) : u.Tuned Config.dlCap where
  dly := hl.core.dly_le.trans (Nat.sub_le _ _)
  modA := hl.modA
  modR := hl.modR
  delayA := hd

theorem State.tuned_of_legal {s : State} (hl : s.Legal) (hr : s.Ranged) : s.Tuned := fun sd => by
  have hc : (s.chan sd).Legal := by
    cases sd
    exacts [hl.left, hl.right]
  exact {
    pre := ModDelay.tuned_of_legal hc.pre (hr.pre sd)
    ed := Diffuser.tuned_of_legal hc.ed (hr.ed sd)
    line := fun j => ⟨ModDelay.tuned_of_legal (hc.line j).delay (hr.delay sd j),
      Diffuser.tuned_of_legal (hc.line j).df (hr.df sd j)⟩ }

section
variable {s : State}

/-- A change outside the channels. -/
theorem State.Tuned.of_chan (h : s.Tuned) {t : State} (e : ∀ sd, t.chan sd = s.chan sd) : t.Tuned := fun sd => by
  rw [e sd]
  exact h sd

theorem State.Tuned.raise (h : s.Tuned) (c : FaultCause) : (s.raise c).Tuned := h.of_chan (s.chan_raise c)

theorem State.Tuned.setRes (h : s.Tuned) (v : Word) : (s.setRes v).Tuned := h.of_chan (s.chan_setRes v)

theorem State.Tuned.setChan (h : s.Tuned) (sd : Side) {c : Channel} (hc : c.Tuned) : (s.setChan sd c).Tuned :=
  fun sd' => by
  rw [State.chan_setChan]
  split
  · exact hc
  · exact h sd'

theorem State.Tuned.line (h : s.Tuned) (sd : Side) (j : Fin 12) : (s.line sd j).Tuned := (h sd).line j

theorem State.Tuned.setLine (h : s.Tuned) (sd : Side) (j : Fin 12) {l : DelayLine} (hl : l.Tuned) :
    (s.setLine sd j l).Tuned := h.setChan sd ((h sd).setLine j hl)

theorem State.Tuned.setLp1 (h : s.Tuned) (r : Lp1Ref) (f : OnePole) : (s.setLp1 r f).Tuned := by
  cases r with
  | chan sd => exact h.setChan sd ⟨(h sd).pre, (h sd).ed, (h sd).line⟩
  | damp sd j => exact h.setLine sd j ⟨(h.line sd j).delay, (h.line sd j).df⟩

theorem State.Tuned.setHp1 (h : s.Tuned) (sd : Side) (f : OnePole) : (s.setHp1 sd f).Tuned :=
  h.setChan sd ⟨(h sd).pre, (h sd).ed, (h sd).line⟩

theorem State.Tuned.setShelf (h : s.Tuned) (r : ShelfRef) (f : Shelf) : (s.setShelf r f).Tuned := by
  obtain ⟨sd, j, kind⟩ := r
  cases kind with
  | low => exact h.setLine sd j ⟨(h.line sd j).delay, (h.line sd j).df⟩
  | high => exact h.setLine sd j ⟨(h.line sd j).delay, (h.line sd j).df⟩

theorem State.Tuned.setMtap (h : s.Tuned) (sd : Side) (f : Multitap) : (s.setMtap sd f).Tuned :=
  h.setChan sd ⟨(h sd).pre, (h sd).ed, (h sd).line⟩

theorem State.Tuned.diff (h : s.Tuned) (r : DiffRef) : (s.diff r).Tuned := by
  cases r with
  | early sd => exact (h sd).ed
  | line sd j => exact (h.line sd j).df

theorem State.Tuned.setDiff (h : s.Tuned) (r : DiffRef) {d : Diffuser} (hd : d.Tuned) : (s.setDiff r d).Tuned := by
  cases r with
  | early sd => exact h.setChan sd ⟨(h sd).pre, hd, (h sd).line⟩
  | line sd j => exact h.setLine sd j ⟨(h.line sd j).delay, hd⟩

theorem State.Tuned.map (h : s.Tuned) (r : MapRef) : (s.map r).core.Tuned Config.apCap := (h.diff r.diff).stage r.k

theorem State.Tuned.setMap (h : s.Tuned) (r : MapRef) {a : Allpass} (ha : a.core.Tuned Config.apCap) :
    (s.setMap r a).Tuned := h.setDiff r.diff ((h.diff r.diff).setStage r.k ha)

theorem State.Tuned.mdly (h : s.Tuned) (r : MdlyRef) : (s.mdly r).Tuned Config.dlCap := by
  cases r with
  | pre sd => exact (h sd).pre
  | line sd j => exact (h.line sd j).delay

theorem State.Tuned.setMdly (h : s.Tuned) (r : MdlyRef) {u : ModDelay} (hu : u.Tuned Config.dlCap) :
    (s.setMdly r u).Tuned := by
  cases r with
  | pre sd => exact h.setChan sd ⟨hu, (h sd).ed, (h sd).line⟩
  | line sd j => exact h.setLine sd j ((h.line sd j).withDelay hu)

theorem State.Tuned.putBlock (h : s.Tuned) (b : Fin 4) (o : List F) : (s.putBlock b o).Tuned :=
  h.of_chan (s.chan_putBlock b o)

theorem State.Tuned.procLine (h : s.Tuned) (sd : Side) (j : Fin 12) (n : Nat) : (s.procLine sd j n).Tuned :=
  (h.setLine sd j ((h.line sd j).proc _)).putBlock _ _

theorem State.Tuned.procChan (h : s.Tuned) (sd : Side) (n : Nat) : (s.procChan sd n).Tuned :=
  (h.setChan sd ((h sd).proc _)).putBlock _ _

/-- Both channels replaced. -/
theorem State.tuned_withChannels (s : State) (e : Engine) {l r : Channel} (hl : l.Tuned) (hr : r.Tuned) :
    ({ s with eng := e, left := l, right := r } : State).Tuned
  | .L => hl
  | .R => hr

theorem State.Tuned.procFrames (h : s.Tuned) (n : Nat) : (s.procFrames n).Tuned :=
  ((s.tuned_withChannels s.eng ((h .L).proc _) ((h .R).proc _)).putBlock _ _).putBlock _ _

theorem State.Tuned.clearChannels (h : s.Tuned) : s.clearChannels.Tuned :=
  s.tuned_withChannels s.eng (h .L).clear (h .R).clear

/-- R353: the pass brings both channels in range, for a legal cross seed parameter. -/
theorem State.Tuned.engSync (h : s.Tuned) (hp : inUnit s.eng.np[(7 : Fin 10)] = true) : s.engSync.Tuned := by
  unfold State.engSync
  split
  · exact s.tuned_withChannels _ ((h .L).ready.apply (deriveConfig_legal _ _ hp (by decide)))
      ((h .R).ready.apply (deriveConfig_legal _ _ hp (by decide)))
  · exact h

end

/-- R430: both channels are in range after a reset, from any state. -/
theorem resetWith_tuned (p : Port) (w : Command) (q : List Event) : (resetWith Config.chip p w q).Tuned := fun sd => by
  have hc : (resetChannel Config.chip sd).Tuned :=
    blankChannel_ready.apply (deriveConfig_legal _ _ (by decide) (by decide))
  cases sd <;> exact hc

/-! ## The commands -/

/-- Every command keeps both channels in range: the settings by their operand checks, the rest as each unit does. -/
theorem exec_keeps_tuned {s : State} (h : s.Tuned) (hp : inUnit s.eng.np[(7 : Fin 10)] = true) (i : Instr) :
    Leads State.Tuned (exec i s) :=
  have hf := h.raise
  match i with
  | .nop => leads_next h
  | .reset => leads_onPortA hf (leads_next (resetWith_tuned _ _ _))
  | .rdreg .. => leads_onRegs hf fun _ => leads_putRead hf h.setRes
  | .rdmem .. => leads_onMems hf fun _ => leads_putRead hf h.setRes
  | .clrf => leads_onPortA hf (leads_next (h.of_chan s.chan_clearFaults))
  | .ioWr .. => leads_onIo hf fun _ => leads_check hf fun _ => leads_next (h.of_chan (s.chan_setIo _ _))
  | .ioRd .. => leads_onIo hf fun _ => leads_check hf fun _ => leads_next (h.setRes _)
  | .rngSeed .. => leads_onRng hf (leads_next (h.of_chan (s.chan_setRng _)))
  | .rngNext _ => leads_onRng hf (leads_next ((h.of_chan (s.chan_setRng _)).setRes _))
  | .rbSetSeed .. => leads_onRbuf hf (leads_next (h.of_chan (s.chan_setRbuf _)))
  | .rbSetX .. => leads_onRbuf hf (leads_check hf fun _ => leads_next (h.of_chan (s.chan_setRbuf _)))
  | .rbGen .. => leads_onRbuf hf (leads_check hf fun _ => leads_next (h.of_chan (s.chan_setRbuf _)))
  | .rbGenX .. => leads_onRbuf hf (leads_check hf fun _ => leads_next (h.of_chan (s.chan_setRbuf _)))
  | .lpSetFc .. => leads_onLp1 hf fun r => leads_check hf fun _ => leads_next (h.setLp1 r _)
  | .lpStep .. => leads_onLp1 hf fun r => leads_next ((h.setLp1 r _).setRes _)
  | .lpClr _ => leads_onLp1 hf fun r => leads_next (h.setLp1 r _)
  | .hpSetFc .. => leads_onHp1 hf fun sd => leads_check hf fun _ => leads_next (h.setHp1 sd _)
  | .hpStep .. => leads_onHp1 hf fun sd => leads_next ((h.setHp1 sd _).setRes _)
  | .hpClr _ => leads_onHp1 hf fun sd => leads_next (h.setHp1 sd _)
  | .shSetF .. => leads_onShelf hf fun r => leads_check hf fun _ => leads_next (h.setShelf r _)
  | .shSetG .. => leads_onShelf hf fun r => leads_check hf fun _ => leads_next (h.setShelf r _)
  | .shStep .. => leads_onShelf hf fun r => leads_next ((h.setShelf r _).setRes _)
  | .shClr _ => leads_onShelf hf fun r => leads_next (h.setShelf r _)
  | .apSetDly .. => leads_onMap hf fun r => leads_check hf fun hn => leads_next (h.setMap r ((h.map r).setDly apCap_le hn))
  | .apSetFb .. => leads_onMap hf fun r => leads_check hf fun _ => leads_next (h.setMap r (h.map r))
  | .apSetModA .. =>
    leads_onMap hf fun r => leads_check hf fun ha => leads_next (h.setMap r ((h.map r).setModA apCap_le ha))
  | .apSetModR .. => leads_onMap hf fun r => leads_check hf fun hr => leads_next (h.setMap r ((h.map r).setModR hr))
  | .apSetInterp .. => leads_onMap hf fun r => leads_check hf fun _ => leads_next (h.setMap r (h.map r))
  | .apSetModEn .. => leads_onMap hf fun r => leads_check hf fun _ => leads_next (h.setMap r (h.map r))
  | .apStep .. => leads_onMap hf fun r => leads_next ((h.setMap r (Allpass.tuned_step (h.map r) _)).setRes _)
  | .apClr _ => leads_onMap hf fun r => leads_next (h.setMap r (h.map r).clear)
  | .dfSetStages .. => leads_onDiff hf fun r => leads_check hf fun _ => leads_next (h.setDiff r ((h.diff r).setStages _))
  | .dfSetDly .. => leads_onDiff hf fun r => leads_check hf fun _ => leads_next (h.setDiff r ((h.diff r).ready.setDly _))
  | .dfSetFb .. => leads_onDiff hf fun r => leads_check hf fun _ => leads_next (h.setDiff r ((h.diff r).setFb _))
  | .dfSetModA .. =>
    leads_onDiff hf fun r => leads_check hf fun ha => leads_next (h.setDiff r ((h.diff r).ready.setModA ha))
  | .dfSetModR .. =>
    leads_onDiff hf fun r => leads_check hf fun hr => leads_next (h.setDiff r ((h.diff r).ready.setModR hr))
  | .dfSetSeed .. => leads_onDiff hf fun r => leads_next (h.setDiff r ((h.diff r).ready.setSeed _))
  | .dfSetX .. => leads_onDiff hf fun r => leads_check hf fun hc => leads_next (h.setDiff r ((h.diff r).ready.setX hc))
  | .dfSetInterp .. => leads_onDiff hf fun r => leads_check hf fun _ => leads_next (h.setDiff r ((h.diff r).setInterp _))
  | .dfSetModEn .. => leads_onDiff hf fun r => leads_check hf fun _ => leads_next (h.setDiff r ((h.diff r).setModEn _))
  | .dfStep .. => leads_onDiff hf fun r => leads_next ((h.setDiff r ((h.diff r).step _)).setRes _)
  | .dfClr _ => leads_onDiff hf fun r => leads_next (h.setDiff r (h.diff r).clear)
  | .mdSetDly .. =>
    leads_onMdly hf fun r => leads_check hf fun hn => leads_next (h.setMdly r ((h.mdly r).setDly dlCap_le hn))
  | .mdSetModA .. =>
    leads_onMdly hf fun r => leads_check hf fun ha => leads_next (h.setMdly r ((h.mdly r).setModA dlCap_le ha))
  | .mdSetModR .. => leads_onMdly hf fun r => leads_check hf fun hr => leads_next (h.setMdly r ((h.mdly r).setModR hr))
  | .mdStep .. => leads_onMdly hf fun r => leads_next ((h.setMdly r ((h.mdly r).step _)).setRes _)
  | .mdClr _ => leads_onMdly hf fun r => leads_next (h.setMdly r (h.mdly r).clear)
  | .mtSetTaps .. => leads_onMtap hf fun sd => leads_check hf fun _ => leads_next (h.setMtap sd _)
  | .mtSetLen .. => leads_onMtap hf fun sd => leads_check hf fun _ => leads_next (h.setMtap sd _)
  | .mtSetDecay .. => leads_onMtap hf fun sd => leads_check hf fun _ => leads_next (h.setMtap sd _)
  | .mtSetSeed .. => leads_onMtap hf fun sd => leads_next (h.setMtap sd _)
  | .mtSetX .. => leads_onMtap hf fun sd => leads_check hf fun _ => leads_next (h.setMtap sd _)
  | .mtStep .. => leads_onMtap hf fun sd => leads_next ((h.setMtap sd _).setRes _)
  | .mtClr _ => leads_onMtap hf fun sd => leads_next (h.setMtap sd _)
  | .dlSetFb .. => leads_onLine hf fun sd j => leads_check hf fun _ => leads_next (h.setLine sd j ((h.line sd j).setFb _))
  | .dlSetFlags .. =>
    leads_onLine hf fun sd j => leads_check hf fun _ => leads_next (h.setLine sd j ((h.line sd j).setFlags _))
  | .dlProc .. => leads_onLine hf fun sd j => leads_check hf fun _ => leads_next (h.procLine sd j _)
  | .dlClr _ => leads_onLine hf fun sd j => leads_next (h.setLine sd j (h.line sd j).clear)
  | .chSetInMix .. => leads_onChan hf fun sd => leads_check hf fun _ => leads_next (h.setChan sd ((h sd).setInMix _))
  | .chSetFlags .. => leads_onChan hf fun sd => leads_check hf fun _ => leads_next (h.setChan sd ((h sd).setFlags _))
  | .chSetLines .. => leads_onChan hf fun sd => leads_check hf fun _ => leads_next (h.setChan sd ((h sd).setLines _))
  | .chSetDecay .. => leads_onChan hf fun sd => leads_check hf fun _ => leads_next (h.setChan sd ((h sd).setDecay _))
  | .chSetDry .. => leads_onChan hf fun sd => leads_check hf fun _ => leads_next (h.setChan sd ((h sd).setDry _))
  | .chSetEarly .. => leads_onChan hf fun sd => leads_check hf fun _ => leads_next (h.setChan sd ((h sd).setEarly _))
  | .chSetLineOut .. => leads_onChan hf fun sd => leads_check hf fun _ => leads_next (h.setChan sd ((h sd).setLineOut _))
  | .chSetX .. => leads_onChan hf fun sd => leads_check hf fun hc => leads_next (h.setChan sd ((h sd).setX hc))
  | .chProc .. => leads_onChan hf fun sd => leads_check hf fun _ => leads_next (h.procChan sd _)
  | .chClr _ => leads_onChan hf fun sd => leads_next (h.setChan sd (h sd).clear)
  | .enSetP .. => leads_onEngAny hf (leads_check hf fun _ => leads_next (h.of_chan (s.chan_setEng _)))
  | .enGetP .. => leads_onEngAny hf (leads_check hf fun _ => leads_next (h.setRes _))
  | .enProc .. => leads_onEng hf (leads_check hf fun _ => leads_next ((h.engSync hp).procFrames _))
  | .enClr _ => leads_onEng hf (leads_next h.clearChannels)
  | .enSync _ => leads_onEng hf (leads_next (h.engSync hp))
  | .fnR2d .. => leads_onFn hf (leads_next (h.setRes _))
  | .fnR3d .. => leads_onFn hf (leads_next (h.setRes _))
  | .fnR4o .. => leads_onFn hf (leads_next (h.setRes _))
  | .fnDb2Lin .. => leads_onFn hf (leads_next (h.setRes _))

/-- One step keeps both channels in range, whatever the event is. -/
theorem step_keeps_tuned {s : State} (h : s.Tuned) (hp : inUnit s.eng.np[(7 : Fin 10)] = true) :
    Leads State.Tuned (step s) := by
  unfold step
  split
  · exact leads_next h
  · exact leads_next (resetWith_tuned _ _ _)
  · next p w q _ =>
    have ha : (s.accept p w q).Tuned := h.of_chan (s.chan_accept p w q)
    split
    · exact exec_keeps_tuned ha hp _
    · exact leads_next (ha.raise _)

/-- Settles O58: a legal state in range has both channels `Tuned`, every step keeps that, and it says all of `Ranged`. -/
theorem rangedKept : Obligations.RangedKept := by
  unfold Obligations.RangedKept
  intro s t hl hr ht
  exact (step_keeps_tuned (State.tuned_of_legal hl hr) (hl.np 7) t ht).ranged

end Sys2Proof.Machine
end

section
/-! One step of the machine (spec/20_memory.md R80): which event happens and what it leaves to come. -/

namespace Sys2Proof.Machine

/-- Settles O7: the queue's head decides, and the reset input writes all but the model's own fields (R430). -/
theorem stepRunsCommand : Obligations.StepRunsCommand := by
  unfold Obligations.StepRunsCommand
  intro s
  refine ⟨fun p w q i hq hw => ?_, fun p w q e hq hw => ?_, fun q hq => ?_, fun hq => ?_⟩
  · simp only [step, hq, hw, State.accept]
  · simp only [step, hq, hw, State.accept, fail_eq]
  · simp only [step, hq]
    rfl
  · simp only [step, hq]

end Sys2Proof.Machine
end

section
/-! The feedback ring is a queue (spec/20_memory.md R77): `contents` under a push and under a pop. -/

namespace Sys2Proof.Machine

namespace DelayLine

variable {l : DelayLine}

@[simp] theorem length_contents (l : DelayLine) : l.contents.length = l.qCount := by simp [contents]

theorem push_of_full (h : l.qCount = Config.fbqCap) (v : F) : l.push v = l := by
  rw [push, if_neg (by omega)]

theorem push_of_lt (h : l.qCount < Config.fbqCap) (v : F) :
    l.push v = { l with q := memWrite l.q l.qWr v, qWr := advance l.qWr Config.fbqCap, qCount := l.qCount + 1 } :=
  if_pos h

theorem pop_of_empty (h : l.qCount = 0) : l.pop = (fzero, l) := by
  rw [pop, if_neg (by omega)]

theorem pop_of_pos (h : 0 < l.qCount) :
    l.pop = (memRead l.q l.qRd, { l with qRd := advance l.qRd Config.fbqCap, qCount := l.qCount - 1 }) :=
  if_pos h

/-- The value that waits behind `i` others. -/
theorem contents_eq_map (l : DelayLine) :
    l.contents = (List.range l.qCount).map fun i => memRead l.q ((l.qRd + i) % Config.fbqCap) := rfl

/-- The write cursor is not at the place of a waiting value, so a push leaves them and appends its own. -/
theorem contents_push (hq : l.QueueOk) (hwf : Memory.wf l.q = true) (h : l.qCount < Config.fbqCap) (v : F) :
    (l.push v).contents = l.contents ++ [v] := by
  have hread (i : Nat) (hi : i ≤ l.qCount) : memRead (memWrite l.q l.qWr v) ((l.qRd + i) % Config.fbqCap) =
      if i = l.qCount then v else memRead l.q ((l.qRd + i) % Config.fbqCap) := by
    have hplace : (l.qRd + i) % Config.fbqCap = l.qWr ↔ i = l.qCount := by
      simp only [hq.wr, Config.fbqCap] at h ⊢
      omega
    simp only [memRead_memWrite hwf, hplace]
  rw [push_of_lt h, contents_eq_map, contents_eq_map, List.range_succ, List.map_append, List.map_singleton]
  congr 1
  · refine List.map_congr_left fun i hi => ?_
    have hi : i < l.qCount := List.mem_range.1 hi
    rw [hread i hi.le, if_neg hi.ne]
  · rw [hread _ le_rfl, if_pos rfl]

/-- A pop gives the oldest value and leaves the others in their order. -/
theorem contents_pop (hq : l.QueueOk) (h : 0 < l.qCount) : l.contents = l.pop.1 :: l.pop.2.contents := by
  have hrd : l.qRd % Config.fbqCap = l.qRd := Nat.mod_eq_of_lt hq.rd
  have hcount : l.qCount = (l.qCount - 1) + 1 := by omega
  rw [pop_of_pos h, contents_eq_map, contents_eq_map, hcount, List.range_succ_eq_map, List.map_cons, List.map_map]
  simp only [Nat.add_zero, hrd, Nat.add_sub_cancel, Function.comp_def, advance, Nat.mod_add_mod, Nat.succ_eq_add_one,
    Nat.add_assoc, Nat.add_comm 1]

theorem QueueOk.push (hq : l.QueueOk) (v : F) : (l.push v).QueueOk := by
  by_cases h : l.qCount < Config.fbqCap
  · rw [push_of_lt h]
    exact ⟨hq.rd, h, by simp only [hq.wr, advance, Nat.mod_add_mod, Nat.add_assoc]⟩
  · rwa [push_of_full (le_antisymm hq.count (not_lt.1 h))]

theorem QueueOk.pop (hq : l.QueueOk) : l.pop.2.QueueOk := by
  by_cases h : 0 < l.qCount
  · have hsum : l.qRd + l.qCount = l.qRd + 1 + (l.qCount - 1) := by omega
    rw [pop_of_pos h]
    exact ⟨advance_lt _ (by decide), (Nat.sub_le _ _).trans hq.count, by
      simp only [hq.wr, advance, Nat.mod_add_mod, hsum]⟩
  · rwa [pop_of_empty (by omega)]

theorem wf_push (hwf : Memory.wf l.q = true) (v : F) : Memory.wf (l.push v).q = true := by
  unfold DelayLine.push
  split
  · exact wf_memWrite hwf _ _
  · exact hwf

end DelayLine

/-- Settles O43, by what `contents` is after a push and before a pop. -/
theorem queueFifo : Obligations.QueueFifo := by
  unfold Obligations.QueueFifo
  intro l v hq hwf
  have hlen := l.length_contents
  refine ⟨fun h => ?_, fun h => ?_, fun h => ?_, fun a rest h => ?_, hq.push v, hq.pop, l.wf_push hwf v, hlen⟩
  · exact DelayLine.contents_push hq hwf (by rwa [← hlen]) v
  · exact DelayLine.push_of_full (by rwa [← hlen]) v
  · exact DelayLine.pop_of_empty (by rw [← hlen, h, List.length_nil])
  · have hpos : 0 < l.qCount := by rw [← hlen, h]; exact Nat.succ_pos _
    rw [DelayLine.contents_pop hq hpos, List.cons.injEq] at h
    exact h

end Sys2Proof.Machine
end

section
/-! The delay buffer of an MDLY (spec/20_memory.md R74, spec/45_moddelay.md R260): what a sample writes and where a later
read finds it. -/

namespace Sys2Proof.Machine

variable (cfg : Config.Params)

theorem ModDelay.tick_widx (u : ModDelay) : (u.tick cfg).widx = u.widx := by
  unfold ModDelay.tick
  split <;> rfl

theorem ModDelay.tick_buf (u : ModDelay) : (u.tick cfg).buf = u.buf := by
  unfold ModDelay.tick
  split <;> rfl

theorem mdlyStep_widx (u : ModDelay) (v : F) : (mdlyStep cfg u v).2.widx = advance u.widx Config.dlCap :=
  congrArg (advance · Config.dlCap) (ModDelay.tick_widx cfg { u with buf := memWrite u.buf u.widx v })

theorem mdlyStep_buf (u : ModDelay) (v : F) : (mdlyStep cfg u v).2.buf = memWrite u.buf u.widx v :=
  ModDelay.tick_buf cfg { u with buf := memWrite u.buf u.widx v }

/-- One step later the same word is one delay further away. -/
theorem tapIndex_advance (w d cap : Nat) : tapIndex (advance w cap) (d + 1 : Nat) cap = tapIndex w d cap := by
  unfold tapIndex advance
  congr 1
  push_cast
  rw [Int.emod_sub_emod]
  congr 1
  ring

/-- Delay 0 is the word at the cursor. -/
theorem tapIndex_zero {w cap : Nat} (h : w < cap) : tapIndex w (0 : Nat) cap = w := by
  unfold tapIndex
  rw [Nat.cast_zero, Int.sub_zero, Int.emod_eq_of_lt (by omega) (by omega), Int.toNat_natCast]

/-- No delay below the capacity but 0 is the word at the cursor. -/
theorem tapIndex_ne {w d cap : Nat} (h : w < cap) (hd : 1 ≤ d) (hdc : d < cap) : tapIndex w d cap ≠ w := by
  unfold tapIndex
  obtain hle | hlt := le_or_gt d w
  · rw [Int.emod_eq_of_lt (by omega) (by omega)]
    omega
  · rw [← Int.add_emod_right, Int.emod_eq_of_lt (by omega) (by omega)]
    omega

theorem ModDelay.feed_concat (u : ModDelay) (vs : List F) (v : F) :
    u.feed cfg (vs ++ [v]) = (mdlyStep cfg (u.feed cfg vs) v).2 := by
  induction vs generalizing u with
  | nil => rfl
  | cons x vs ih => exact ih _

/-- The samples fed in leave a canonical buffer and the cursor as many words further. -/
theorem ModDelay.feed_wf_widx {u : ModDelay} (hwf : Memory.wf u.buf = true) (hw : u.widx < Config.dlCap) (vs : List F) :
    Memory.wf (u.feed cfg vs).buf = true ∧ (u.feed cfg vs).widx = (u.widx + vs.length) % Config.dlCap := by
  induction vs using List.reverseRecOn with
  | nil => exact ⟨hwf, (Nat.mod_eq_of_lt hw).symm⟩
  | append_singleton vs v ih =>
    obtain ⟨hbuf, hwidx⟩ := ih
    rw [ModDelay.feed_concat, mdlyStep_buf, mdlyStep_widx, hwidx]
    refine ⟨wf_memWrite hbuf _ _, ?_⟩
    rw [advance, Nat.mod_add_mod, List.length_append, List.length_singleton, Nat.add_assoc]

/-- After a sample, delay 1 reads it, and delay `d + 1` what delay `d` read before. -/
theorem mdlyStep_tap {u : ModDelay} (hwf : Memory.wf u.buf = true) (hw : u.widx < Config.dlCap) (v : F) {d : Nat}
    (hd : d < Config.dlCap) :
    memTap (mdlyStep cfg u v).2.buf (mdlyStep cfg u v).2.widx (d + 1 : Nat) Config.dlCap =
      if d = 0 then v else memTap u.buf u.widx d Config.dlCap := by
  rw [memTap, mdlyStep_buf, mdlyStep_widx, tapIndex_advance, memRead_memWrite hwf]
  obtain rfl | hpos := Nat.eq_zero_or_pos d
  · rw [if_pos (tapIndex_zero hw), if_pos rfl]
  · rw [if_neg (tapIndex_ne hw hpos hd), if_neg (Nat.ne_of_gt hpos), memTap]

/-- A delay of at least 1 reads the sample of that many steps ago. -/
theorem ModDelay.feed_tap {u : ModDelay} (hwf : Memory.wf u.buf = true) (hw : u.widx < Config.dlCap) {vs : List F}
    {d : Nat} (hd : d < vs.length) (hcap : d < Config.dlCap) :
    some (memTap (u.feed cfg vs).buf (u.feed cfg vs).widx (d + 1 : Nat) Config.dlCap) = vs.reverse[d]? := by
  induction vs using List.reverseRecOn generalizing d with
  | nil => cases hd
  | append_singleton vs v ih =>
    obtain ⟨hbuf, hwidx⟩ := ModDelay.feed_wf_widx cfg hwf hw vs
    have hlt : (u.feed cfg vs).widx < Config.dlCap := hwidx ▸ Nat.mod_lt _ (by decide)
    rw [ModDelay.feed_concat, mdlyStep_tap cfg hbuf hlt v hcap, List.reverse_concat]
    cases d with
    | zero => rfl
    | succ d =>
      rw [List.length_append, List.length_singleton] at hd
      exact ih (by omega) (by omega)

/-- Settles O30, by induction over the samples from the last one. -/
theorem circularBuffer : Obligations.CircularBuffer := by
  unfold Obligations.CircularBuffer
  intro cfg u vs d hwf hw hd hlen hcap
  obtain ⟨e, rfl⟩ : ∃ e, d = e + 1 := ⟨d - 1, by omega⟩
  refine ⟨?_, (ModDelay.feed_wf_widx cfg hwf hw vs).2⟩
  rw [ModDelay.feed_tap cfg hwf hw hlen hcap, List.getElem?_reverse hlen, Nat.sub_sub, Nat.add_comm 1 e]

end Sys2Proof.Machine
end

section
/-! No stale derived value in a unit (spec/20_memory.md R85). A diffuser or multitap is `Fresh` when it is `Coherent` and
the memories that a re-derivation writes are canonical, so that what is written is what is read; every operation of a unit
keeps it, and a re-derivation brings it about from canonical memories alone. -/

namespace Sys2Proof.Machine

section
variable {cfg : Config.Params}

/-! ## A one-pole filter -/

section
variable {u : OnePole}

/-- R152, R155: `SETFC` recomputes both coefficients. -/
theorem OnePole.coherent_setFc (cfg : Config.Params) (u : OnePole) (f : F) : (u.setFc cfg f).Coherent cfg := rfl

theorem OnePole.Coherent.lp1Step (h : u.Coherent cfg) (v : F) : (lp1Step cfg u v).2.Coherent cfg := h

theorem OnePole.Coherent.hp1Step (h : u.Coherent cfg) (v : F) : (hp1Step cfg u v).2.Coherent cfg := by
  unfold Sys2Proof.Machine.hp1Step
  split
  · exact h
  · exact h

theorem OnePole.Coherent.clear (h : u.Coherent cfg) : u.clear.Coherent cfg := h

end

/-! ## A shelf -/

section
variable {k : Config.ShelfKind} {u : Shelf}

/-- R175: `SETF` recomputes the coefficients. -/
theorem Shelf.coherent_setF (cfg : Config.Params) (k : Config.ShelfKind) (u : Shelf) (f : F) :
    (u.setF cfg k f).Coherent cfg k := rfl

/-- R176: `SETG` recomputes the coefficients from the clamped gain, which is the one `GAIN` holds. -/
theorem Shelf.coherent_setG (cfg : Config.Params) (k : Config.ShelfKind) (u : Shelf) (g : F) :
    (u.setG cfg k g).Coherent cfg k := rfl

theorem Shelf.Coherent.step (h : u.Coherent cfg k) (v : F) : (shelfStep u v).2.Coherent cfg k := h

theorem Shelf.Coherent.clear (h : u.Coherent cfg k) : u.clear.Coherent cfg k := h

end

/-! ## A modulated delay -/

section
variable {u : ModDelay}

/-- Taps that are `TAPCALC` of the registers, whatever they were before. -/
theorem ModDelay.coherent_withTaps {t : Taps} (ht : t = tapCalc cfg u.dly u.modA u.phase) :
    ({ u with taps := t } : ModDelay).Coherent cfg := ht

/-- R196: `TAPCALC` leaves the taps of the registers. -/
theorem ModDelay.coherent_retap (cfg : Config.Params) (u : ModDelay) : (u.retap cfg).Coherent cfg :=
  ModDelay.coherent_withTaps rfl

/-- Registers and samples that the taps do not depend on. -/
theorem ModDelay.Coherent.withCursor (h : u.Coherent cfg) (r : F) (n w : Nat) (m : Mem) :
    ({ u with modR := r, cnt := n, widx := w, buf := m } : ModDelay).Coherent cfg := h

theorem ModDelay.coherent_setDly (cfg : Config.Params) (u : ModDelay) (n : Nat) : (u.setDly cfg n).Coherent cfg :=
  ModDelay.coherent_retap cfg { u with dly := n }

theorem ModDelay.coherent_setModA (cfg : Config.Params) (u : ModDelay) (a : F) : (u.setModA cfg a).Coherent cfg :=
  ModDelay.coherent_retap cfg { u with modA := a }

theorem ModDelay.Coherent.setModR (h : u.Coherent cfg) (r : F) : (u.setModR r).Coherent cfg := h.withCursor r _ _ _

/-- The update of a new phase is followed by `TAPCALC` (R198, R260). -/
theorem ModDelay.Coherent.tick (h : u.Coherent cfg) : (u.tick cfg).Coherent cfg := by
  unfold ModDelay.tick
  split
  · exact (ModDelay.coherent_retap cfg u.modUpdate).withCursor _ 0 _ _
  · exact h

theorem ModDelay.Coherent.step (h : u.Coherent cfg) (v : F) : (mdlyStep cfg u v).2.Coherent cfg :=
  ((h.withCursor _ _ _ (memWrite u.buf u.widx v)).tick).withCursor _ _ _ _

theorem ModDelay.Coherent.clear (h : u.Coherent cfg) (cap : Nat) : (u.clear cap).Coherent cfg :=
  h.withCursor _ _ _ (memClear cap u.buf)

theorem coherent_applyDelay (cfg : Config.Params) (u : ModDelay) (k : Config.DelayConfig) :
    (applyDelay cfg u k).Coherent cfg :=
  (ModDelay.coherent_setModA cfg (u.setDly cfg k.dly) k.modA).setModR k.modR

end

/-! ## An all-pass stage -/

section
variable {u : Allpass}

theorem Allpass.coherent_read (h : u.core.Coherent cfg) : (u.read cfg).2.Coherent cfg := by
  unfold Allpass.read
  split
  · exact h.tick.withCursor _ _ _ _
  · exact h

theorem Allpass.coherent_step (h : u.core.Coherent cfg) (v : F) : (mapStep cfg u v).2.core.Coherent cfg :=
  (Allpass.coherent_read h).withCursor _ _ _ _

end

/-! ## A diffuser -/

theorem length_generateFrom (cfg : Config.Params) (x : BitVec 64) (n : Nat) : (generateFrom cfg x n).length = n := by
  induction n generalizing x with
  | zero => rfl
  | succ n ih => rw [generateFrom, List.length_cons, ih]

/-- `n` random values are drawn, whatever the cross seed is (R134, R135). -/
theorem length_generateCross (cfg : Config.Params) (seed : Word) (c : F) (n : Nat) :
    (generateCross cfg seed c n).length = n := by
  rw [generateCross, List.length_zipWith, generate, generate, length_generateFrom, length_generateFrom, min_self]

/-- The values drawn into a canonical memory are those read back. -/
theorem memReadList_generateCross (cfg : Config.Params) {m : Mem} (h : Memory.wf m = true) (seed : Word) (c : F)
    (n : Nat) : memReadList (memWriteList m 0 (generateCross cfg seed c n)) 0 n = generateCross cfg seed c n := by
  have hread := memReadList_memWriteList h 0 (generateCross cfg seed c n)
  rwa [length_generateCross] at hread

/-- No derived value of a diffuser is stale, and the memory of its random values is canonical. -/
structure Diffuser.Fresh (cfg : Config.Params) (d : Diffuser) : Prop where
  seedV_wf : Memory.wf d.seedV = true
  coherent : d.Coherent cfg

theorem deriveStage_coherent (cfg : Config.Params) (d : Diffuser) (k : Nat) (s : Allpass) :
    (deriveStage cfg d k s).core.Coherent cfg :=
  ModDelay.coherent_retap cfg _

theorem Diffuser.update_seedV (cfg : Config.Params) (d : Diffuser) :
    (d.update cfg).seedV = memWriteList d.seedV 0 (generateCross cfg d.seed d.xseed Config.diffDraws) := by
  simp only [Diffuser.update, Diffuser.deriveStages, Diffuser.draw]

@[simp] theorem Diffuser.update_xseed (cfg : Config.Params) (d : Diffuser) : (d.update cfg).xseed = d.xseed := by
  simp only [Diffuser.update, Diffuser.deriveStages, Diffuser.draw]

/-- R223: `DIFF_update` draws the random values of the registers and gives every stage its taps. -/
theorem Diffuser.fresh_update (cfg : Config.Params) {d : Diffuser} (h : Memory.wf d.seedV = true) :
    (d.update cfg).Fresh cfg where
  seedV_wf := by
    rw [Diffuser.update_seedV]
    exact wf_memWriteList h _ _
  coherent := {
    seedV := by
      rw [Diffuser.update_seedV, Diffuser.update_seed, Diffuser.update_xseed]
      exact memReadList_generateCross cfg h _ _ _
    stage := fun k => by
      rw [Diffuser.update, Diffuser.deriveStages_stage]
      exact deriveStage_coherent cfg _ _ _ }

section
variable {d : Diffuser}

theorem Diffuser.Fresh.setStages (h : d.Fresh cfg) (n : Nat) : (d.setStages n).Fresh cfg :=
  ⟨h.seedV_wf, h.coherent.seedV, h.coherent.stage⟩

theorem Diffuser.Fresh.setDly (h : d.Fresh cfg) (n : Nat) : (d.setDly cfg n).Fresh cfg :=
  Diffuser.fresh_update cfg h.seedV_wf

theorem Diffuser.Fresh.setModA (h : d.Fresh cfg) (a : F) : (d.setModA cfg a).Fresh cfg :=
  Diffuser.fresh_update cfg h.seedV_wf

theorem Diffuser.Fresh.setModR (h : d.Fresh cfg) (r : F) : (d.setModR cfg r).Fresh cfg :=
  Diffuser.fresh_update cfg h.seedV_wf

theorem Diffuser.Fresh.setSeed (h : d.Fresh cfg) (seed : Word) : (d.setSeed cfg seed).Fresh cfg :=
  Diffuser.fresh_update cfg h.seedV_wf

theorem Diffuser.fresh_setX (h : Memory.wf d.seedV = true) (c : F) : (d.setX cfg c).Fresh cfg :=
  Diffuser.fresh_update cfg h

/-- Registers that nothing derives from, and stages whose own taps agree. -/
theorem Diffuser.Fresh.withStage (h : d.Fresh cfg) (g : F) (b : BitVec 2) {v : Vector Allpass 12}
    (hv : ∀ k : Fin 12, v[k].core.Coherent cfg) : ({ d with fb := g, flags := b, stage := v } : Diffuser).Fresh cfg :=
  ⟨h.seedV_wf, h.coherent.seedV, hv⟩

/-- The same operation on all 12 stages. -/
theorem Diffuser.Fresh.mapStages (h : d.Fresh cfg) {f : Allpass → Allpass}
    (hf : ∀ a, a.core.Coherent cfg → (f a).core.Coherent cfg) (k : Fin 12) : (vecMap f d.stage)[k].core.Coherent cfg := by
  rw [getElem_vecMap]
  exact hf _ (h.coherent.stage k)

theorem Diffuser.Fresh.setFb (h : d.Fresh cfg) (g : F) : (d.setFb g).Fresh cfg :=
  h.withStage g d.flags (h.mapStages fun _ ha => ha)

theorem Diffuser.Fresh.setInterp (h : d.Fresh cfg) (b : Bool) : (d.setInterp b).Fresh cfg :=
  h.withStage d.fb _ (h.mapStages fun _ ha => ha)

theorem Diffuser.Fresh.setModEn (h : d.Fresh cfg) (b : Bool) : (d.setModEn b).Fresh cfg :=
  h.withStage d.fb _ (h.mapStages fun _ ha => ha)

theorem Diffuser.Fresh.clear (h : d.Fresh cfg) : d.clear.Fresh cfg :=
  h.withStage d.fb d.flags (h.mapStages fun _ ha => ha.clear _)

/-- A vector of stages with one of them replaced. -/
theorem coherent_setStage {v : Vector Allpass 12} (hv : ∀ j : Fin 12, v[j].core.Coherent cfg) (k : Fin 12) {a : Allpass}
    (ha : a.core.Coherent cfg) (j : Fin 12) : (v.set k a)[j].core.Coherent cfg := by
  rw [vec_set_get]
  split
  · exact ha
  · exact hv j

theorem Diffuser.Fresh.setStage (h : d.Fresh cfg) (k : Fin 12) {a : Allpass} (ha : a.core.Coherent cfg) :
    (d.setStage k a).Fresh cfg :=
  h.withStage d.fb d.flags (coherent_setStage h.coherent.stage k ha)

/-- The eight settings of `ApplyConfig` leave no stale value of a diffuser, whatever it held before (R363). -/
theorem Diffuser.fresh_apply (h : Memory.wf d.seedV = true) (k : Config.DiffuserConfig) :
    (applyDiffuser cfg d k).Fresh cfg := by
  have hdly : ((d.setStages k.stages).setDly cfg k.dly).Fresh cfg := Diffuser.fresh_update cfg h
  exact (((((hdly.setFb k.fb).setModA k.modA).setModR k.modR).setSeed k.seed).setInterp k.interp).setModEn k.modEn

/-- What the cascade carries from stage to stage (R235). -/
theorem coherent_cascadeStage {stages : Nat} {acc : F × Vector Allpass 12}
    (h : ∀ j : Fin 12, acc.2[j].core.Coherent cfg) (k j : Fin 12) :
    (cascadeStage cfg stages acc k).2[j].core.Coherent cfg := by
  unfold cascadeStage
  split
  · exact coherent_setStage h k (Allpass.coherent_step (h k) acc.1) j
  · exact h j

theorem Diffuser.Fresh.step (h : d.Fresh cfg) (v : F) : (diffStep cfg d v).2.Fresh cfg :=
  h.withStage d.fb d.flags <|
    List.foldlRecOn (motive := fun acc : F × Vector Allpass 12 => ∀ j : Fin 12, acc.2[j].core.Coherent cfg)
      idx12 (cascadeStage cfg d.stages) h.coherent.stage fun _ hacc k _ => coherent_cascadeStage hacc k

end

/-! ## A multitap delay -/

/-- The memories that `MTAP_update` writes are canonical. -/
structure Multitap.SeedsWf (u : Multitap) : Prop where
  seedV : Memory.wf u.seedV = true
  tapGain : Memory.wf u.tapGain = true
  tapPos : Memory.wf u.tapPos = true

/-- No derived value of a multitap delay is stale, and the memories it derives are canonical. -/
structure Multitap.Fresh (cfg : Config.Params) (u : Multitap) : Prop where
  wf : u.SeedsWf
  coherent : u.Coherent cfg

/-- Value `i` of a function written over a canonical memory from word 0 up. -/
theorem memRead_memWriteList_range {m : Mem} (h : Memory.wf m = true) (f : Nat → Word) {n i : Nat} (hi : i < n) :
    memRead (memWriteList m 0 ((List.range n).map f)) i = f i := by
  rw [memRead_memWriteList h, if_pos (Nat.zero_le i), Nat.sub_zero, List.getElem?_map, List.getElem?_range hi,
    Option.map_some, Option.getD_some]

@[simp] theorem Multitap.update_xseed (cfg : Config.Params) (u : Multitap) : (u.update cfg).xseed = u.xseed := by
  simp only [Multitap.update, Multitap.deriveTaps, Multitap.draw]

theorem Multitap.draw_seedV (cfg : Config.Params) (u : Multitap) : (u.draw cfg).seedV = (u.update cfg).seedV := by
  simp only [Multitap.update, Multitap.deriveTaps]

/-- R273: `MTAP_update` draws the random values of the registers and derives every tap from them. -/
theorem Multitap.fresh_update (cfg : Config.Params) {u : Multitap} (h : u.SeedsWf) : (u.update cfg).Fresh cfg where
  wf := {
    seedV := by
      rw [Multitap.update_seedV]
      exact wf_memWriteList h.seedV _ _
    tapGain := by
      rw [Multitap.update_tapGain]
      exact wf_memWriteList h.tapGain _ _
    tapPos := by
      rw [Multitap.update_tapPos]
      exact wf_memWriteList h.tapPos _ _ }
  coherent := {
    seedV := by
      rw [Multitap.update_seedV, Multitap.update_seed, Multitap.update_xseed]
      exact memReadList_generateCross cfg h.seedV _ _ _
    tapGain := fun i hi => by
      rw [Multitap.update_tapGain, memRead_memWriteList_range h.tapGain _ hi, Multitap.draw_seedV]
    tapPos := fun i hi => by
      rw [Multitap.update_tapPos, memRead_memWriteList_range h.tapPos _ hi, Multitap.draw_seedV] }

section
variable {u : Multitap}

/-- Registers and samples that no random value, gain or position of a tap derives from. -/
theorem Multitap.Fresh.withSettings (h : u.Fresh cfg) (n len : Nat) (x : F) (w : Nat) (m : Mem) :
    ({ u with taps := n, len := len, decay := x, widx := w, buf := m } : Multitap).Fresh cfg :=
  ⟨⟨h.wf.seedV, h.wf.tapGain, h.wf.tapPos⟩, h.coherent.seedV, h.coherent.tapGain, h.coherent.tapPos⟩

theorem Multitap.Fresh.setTaps (h : u.Fresh cfg) (n : Nat) : (u.setTaps n).Fresh cfg := h.withSettings n _ _ _ _

theorem Multitap.Fresh.setLen (h : u.Fresh cfg) (n : Nat) : (u.setLen n).Fresh cfg := h.withSettings _ n _ _ _

theorem Multitap.Fresh.setDecay (h : u.Fresh cfg) (x : F) : (u.setDecay x).Fresh cfg := h.withSettings _ _ x _ _

theorem Multitap.Fresh.setSeed (h : u.Fresh cfg) (seed : Word) : (u.setSeed cfg seed).Fresh cfg :=
  Multitap.fresh_update cfg ⟨h.wf.seedV, h.wf.tapGain, h.wf.tapPos⟩

theorem Multitap.Fresh.setX (h : u.Fresh cfg) (c : F) : (u.setX cfg c).Fresh cfg :=
  Multitap.fresh_update cfg ⟨h.wf.seedV, h.wf.tapGain, h.wf.tapPos⟩

theorem Multitap.Fresh.step (h : u.Fresh cfg) (v : F) : (mtapStep cfg u v).2.Fresh cfg := h.withSettings _ _ _ _ _

theorem Multitap.Fresh.clear (h : u.Fresh cfg) : u.clear.Fresh cfg := h.withSettings _ _ _ _ _

theorem Multitap.fresh_apply (h : u.SeedsWf) (k : Config.MultitapConfig) : (applyMultitap cfg u k).Fresh cfg :=
  Multitap.fresh_update cfg ⟨h.seedV, h.tapGain, h.tapPos⟩

end

/-! ## A delay line -/

/-- No derived value of a line is stale, and its diffuser stays so. -/
structure DelayLine.Fresh (cfg : Config.Params) (l : DelayLine) : Prop where
  delay : l.delay.Coherent cfg
  df : l.df.Fresh cfg
  ls : l.ls.Coherent cfg .low
  hs : l.hs.Coherent cfg .high
  damp : l.damp.Coherent cfg

section
variable {l : DelayLine}

theorem DelayLine.Fresh.coherent (h : l.Fresh cfg) : l.Coherent cfg := ⟨h.delay, h.df.coherent, h.ls, h.hs, h.damp⟩

/-- The feedback register, the flags and the queue: nothing derives from them. -/
theorem DelayLine.Fresh.withQueue (h : l.Fresh cfg) (g : F) (b : BitVec 5) (rd wr n : Nat) (m : Mem) :
    ({ l with fb := g, flags := b, qRd := rd, qWr := wr, qCount := n, q := m } : DelayLine).Fresh cfg :=
  ⟨h.delay, h.df, h.ls, h.hs, h.damp⟩

theorem DelayLine.Fresh.withDelay (h : l.Fresh cfg) {u : ModDelay} (hu : u.Coherent cfg) :
    ({ l with delay := u } : DelayLine).Fresh cfg := ⟨hu, h.df, h.ls, h.hs, h.damp⟩

theorem DelayLine.Fresh.withDf (h : l.Fresh cfg) {d : Diffuser} (hd : d.Fresh cfg) :
    ({ l with df := d } : DelayLine).Fresh cfg := ⟨h.delay, hd, h.ls, h.hs, h.damp⟩

theorem DelayLine.Fresh.withLs (h : l.Fresh cfg) {u : Shelf} (hu : u.Coherent cfg .low) :
    ({ l with ls := u } : DelayLine).Fresh cfg := ⟨h.delay, h.df, hu, h.hs, h.damp⟩

theorem DelayLine.Fresh.withHs (h : l.Fresh cfg) {u : Shelf} (hu : u.Coherent cfg .high) :
    ({ l with hs := u } : DelayLine).Fresh cfg := ⟨h.delay, h.df, h.ls, hu, h.damp⟩

theorem DelayLine.Fresh.withDamp (h : l.Fresh cfg) {u : OnePole} (hu : u.Coherent cfg) :
    ({ l with damp := u } : DelayLine).Fresh cfg := ⟨h.delay, h.df, h.ls, h.hs, hu⟩

theorem DelayLine.Fresh.pop (h : l.Fresh cfg) : l.pop.2.Fresh cfg := by
  unfold DelayLine.pop
  split
  · exact h.withQueue _ _ _ _ _ _
  · exact h

theorem DelayLine.Fresh.push (h : l.Fresh cfg) (v : F) : (l.push v).Fresh cfg := by
  unfold DelayLine.push
  split
  · exact h.withQueue _ _ _ _ _ _
  · exact h

theorem DelayLine.Fresh.popN (h : l.Fresh cfg) (n : Nat) : (DelayLine.popN n l).2.Fresh cfg := by
  induction n generalizing l with
  | zero => exact h
  | succ n ih => exact ih h.pop

theorem DelayLine.Fresh.pushAll (h : l.Fresh cfg) (vs : List F) : (l.pushAll vs).Fresh cfg :=
  List.foldlRecOn (motive := DelayLine.Fresh cfg) vs DelayLine.push h fun _ hl v _ => hl.push v

theorem DelayLine.Fresh.viaDiffuser (h : l.Fresh cfg) (y : F) : (l.viaDiffuser cfg y).2.Fresh cfg := by
  unfold DelayLine.viaDiffuser
  split
  · exact h.withDf (h.df.step y)
  · exact h

theorem DelayLine.Fresh.viaLowShelf (h : l.Fresh cfg) (y : F) : (l.viaLowShelf y).2.Fresh cfg := by
  unfold DelayLine.viaLowShelf
  split
  · exact h.withLs (h.ls.step y)
  · exact h

theorem DelayLine.Fresh.viaHighShelf (h : l.Fresh cfg) (y : F) : (l.viaHighShelf y).2.Fresh cfg := by
  unfold DelayLine.viaHighShelf
  split
  · exact h.withHs (h.hs.step y)
  · exact h

theorem DelayLine.Fresh.viaDamping (h : l.Fresh cfg) (y : F) : (l.viaDamping cfg y).2.Fresh cfg := by
  unfold DelayLine.viaDamping
  split
  · exact h.withDamp (h.damp.lp1Step y)
  · exact h

theorem DelayLine.Fresh.sample (h : l.Fresh cfg) (x fbv : F) : (l.sample cfg x fbv).2.2.Fresh cfg :=
  ((((h.withDelay (h.delay.step _)).viaDiffuser _).viaLowShelf _).viaHighShelf _).viaDamping _

theorem DelayLine.Fresh.samples (h : l.Fresh cfg) (xs : List (F × F)) : (l.samples cfg xs).2.2.Fresh cfg := by
  induction xs generalizing l with
  | nil => exact h
  | cons x xs ih => exact ih (h.sample x.1 x.2)

theorem DelayLine.Fresh.proc (h : l.Fresh cfg) (x : List F) : (dlineProc cfg l x).2.Fresh cfg :=
  ((h.popN _).samples _).pushAll _

theorem DelayLine.Fresh.setFb (h : l.Fresh cfg) (g : F) : (l.setFb g).Fresh cfg := h.withQueue g _ _ _ _ _

theorem DelayLine.Fresh.setFlags (h : l.Fresh cfg) (m : BitVec 5) : (l.setFlags m).Fresh cfg := h.withQueue _ m _ _ _ _

theorem DelayLine.Fresh.clear (h : l.Fresh cfg) : l.clear.Fresh cfg :=
  ⟨h.delay.clear _, h.df.clear, h.ls.clear, h.hs.clear, h.damp.clear⟩

theorem DelayLine.fresh_apply (h : Memory.wf l.df.seedV = true) (k : Config.LineConfig) :
    (applyLine cfg l k).Fresh cfg where
  delay := coherent_applyDelay cfg l.delay k.delay
  df := Diffuser.fresh_apply h k.df
  ls := Shelf.coherent_setG cfg .low _ _
  hs := Shelf.coherent_setG cfg .high _ _
  damp := OnePole.coherent_setFc cfg _ _

end

/-! ## A channel -/

/-- No derived value of a channel is stale, and its diffusers and its multitap stay so. -/
structure Channel.Fresh (cfg : Config.Params) (c : Channel) : Prop where
  hp : c.hp.Coherent cfg
  lp : c.lp.Coherent cfg
  pre : c.pre.Coherent cfg
  mt : c.mt.Fresh cfg
  ed : c.ed.Fresh cfg
  line : ∀ j : Fin 12, c.line[j].Fresh cfg

/-- The memories that the re-derivations of a channel write are canonical. -/
structure Channel.SeedsWf (c : Channel) : Prop where
  mt : c.mt.SeedsWf
  ed : Memory.wf c.ed.seedV = true
  df : ∀ j : Fin 12, Memory.wf c.line[j].df.seedV = true

section
variable {c : Channel}

theorem Channel.Fresh.coherent (h : c.Fresh cfg) : c.Coherent cfg :=
  ⟨h.hp, h.lp, h.pre, h.mt.coherent, h.ed.coherent, fun j => (h.line j).coherent⟩

theorem Channel.Fresh.seedsWf (h : c.Fresh cfg) : c.SeedsWf := ⟨h.mt.wf, h.ed.seedV_wf, fun j => (h.line j).df.seedV_wf⟩

theorem Channel.fresh_of_legal (hl : c.Legal) (hc : c.Coherent cfg) : c.Fresh cfg where
  hp := hc.hp
  lp := hc.lp
  pre := hc.pre
  mt := ⟨⟨hl.mt.seedV_wf, hl.mt.tapGain_wf, hl.mt.tapPos_wf⟩, hc.mt⟩
  ed := ⟨hl.ed.seedV_wf, hc.ed⟩
  line j := ⟨(hc.line j).delay, ⟨(hl.line j).df.seedV_wf, (hc.line j).df⟩, (hc.line j).ls, (hc.line j).hs,
    (hc.line j).damp⟩

/-- The channel's own registers: nothing in a unit below derives from them. -/
theorem Channel.Fresh.withRegs (h : c.Fresh cfg) (g : F) (b : BitVec 4) (n : Nat) (t dry early out x : F) :
    ({ c with inMix := g, flags := b, lines := n, decayT := t, dry := dry, early := early, lineOut := out,
              xseed := x } : Channel).Fresh cfg :=
  ⟨h.hp, h.lp, h.pre, h.mt, h.ed, h.line⟩

theorem Channel.Fresh.withHp (h : c.Fresh cfg) {u : OnePole} (hu : u.Coherent cfg) :
    ({ c with hp := u } : Channel).Fresh cfg := ⟨hu, h.lp, h.pre, h.mt, h.ed, h.line⟩

theorem Channel.Fresh.withLp (h : c.Fresh cfg) {u : OnePole} (hu : u.Coherent cfg) :
    ({ c with lp := u } : Channel).Fresh cfg := ⟨h.hp, hu, h.pre, h.mt, h.ed, h.line⟩

theorem Channel.Fresh.withPre (h : c.Fresh cfg) {u : ModDelay} (hu : u.Coherent cfg) :
    ({ c with pre := u } : Channel).Fresh cfg := ⟨h.hp, h.lp, hu, h.mt, h.ed, h.line⟩

theorem Channel.Fresh.withMt (h : c.Fresh cfg) {u : Multitap} (hu : u.Fresh cfg) :
    ({ c with mt := u } : Channel).Fresh cfg := ⟨h.hp, h.lp, h.pre, hu, h.ed, h.line⟩

theorem Channel.Fresh.withEd (h : c.Fresh cfg) {d : Diffuser} (hd : d.Fresh cfg) :
    ({ c with ed := d } : Channel).Fresh cfg := ⟨h.hp, h.lp, h.pre, h.mt, hd, h.line⟩

theorem Channel.Fresh.withLines (h : c.Fresh cfg) {v : Vector DelayLine 12} (hv : ∀ j : Fin 12, v[j].Fresh cfg) :
    ({ c with line := v } : Channel).Fresh cfg := ⟨h.hp, h.lp, h.pre, h.mt, h.ed, hv⟩

theorem Channel.Fresh.viaHighPass (h : c.Fresh cfg) (a : F) : (c.viaHighPass cfg a).2.Fresh cfg := by
  unfold Channel.viaHighPass
  split
  · exact h.withHp (h.hp.hp1Step a)
  · exact h

theorem Channel.Fresh.viaLowPass (h : c.Fresh cfg) (a : F) : (c.viaLowPass cfg a).2.Fresh cfg := by
  unfold Channel.viaLowPass
  split
  · exact h.withLp (h.lp.lp1Step a)
  · exact h

theorem Channel.Fresh.viaPreDelay (h : c.Fresh cfg) (a : F) : (c.viaPreDelay cfg a).2.Fresh cfg :=
  h.withPre (h.pre.step a)

theorem Channel.Fresh.viaMultitap (h : c.Fresh cfg) (e : F) : (c.viaMultitap cfg e).2.Fresh cfg := by
  unfold Channel.viaMultitap
  split
  · exact h.withMt (h.mt.step e)
  · exact h

theorem Channel.Fresh.viaEarlyDiffuser (h : c.Fresh cfg) (e : F) : (c.viaEarlyDiffuser cfg e).2.Fresh cfg := by
  unfold Channel.viaEarlyDiffuser
  split
  · exact h.withEd (h.ed.step e)
  · exact h

theorem Channel.Fresh.earlySample (h : c.Fresh cfg) (x : F) :
    (chanEarly cfg (chanInput cfg c x).2 (chanInput cfg c x).1).2.Fresh cfg :=
  ((((h.viaHighPass _).viaLowPass _).viaPreDelay _).viaMultitap _).viaEarlyDiffuser _

theorem Channel.Fresh.earlyBlock (h : c.Fresh cfg) (xs : List F) : (chanEarlyBlock cfg c xs).2.Fresh cfg := by
  induction xs generalizing c with
  | nil => exact h
  | cons x xs ih => exact ih (h.earlySample x)

/-- A vector of lines with one of them replaced. -/
theorem fresh_setLine {v : Vector DelayLine 12} (hv : ∀ j : Fin 12, v[j].Fresh cfg) (k : Fin 12) {l : DelayLine}
    (hl : l.Fresh cfg) (j : Fin 12) : (v.set k l)[j].Fresh cfg := by
  rw [vec_set_get]
  split
  · exact hl
  · exact hv j

theorem fresh_chanLine {lines : Nat} {e : List F} {acc : List F × Vector DelayLine 12}
    (h : ∀ j : Fin 12, acc.2[j].Fresh cfg) (k j : Fin 12) : (chanLine cfg lines e acc k).2[j].Fresh cfg := by
  unfold chanLine
  split
  · exact fresh_setLine h k ((h k).proc e) j
  · exact h j

theorem Channel.Fresh.lines (h : c.Fresh cfg) (e : List F) : (chanLines cfg c e).2.Fresh cfg :=
  h.withLines <|
    List.foldlRecOn (motive := fun acc : List F × Vector DelayLine 12 => ∀ j : Fin 12, acc.2[j].Fresh cfg)
      idx12 (chanLine cfg c.lines e) h.line fun _ hacc k _ => fresh_chanLine hacc k

theorem Channel.Fresh.proc (h : c.Fresh cfg) (x : List F) : (chanProc cfg c x).2.Fresh cfg := (h.earlyBlock x).lines _

theorem Channel.Fresh.mapLines (h : c.Fresh cfg) {f : DelayLine → DelayLine} (hf : ∀ l, l.Fresh cfg → (f l).Fresh cfg)
    (j : Fin 12) : (vecMap f c.line)[j].Fresh cfg := by
  rw [getElem_vecMap]
  exact hf _ (h.line j)

theorem Channel.Fresh.setLine (h : c.Fresh cfg) (j : Fin 12) {l : DelayLine} (hl : l.Fresh cfg) :
    (c.setLine j l).Fresh cfg :=
  h.withLines (fresh_setLine h.line j hl)

theorem Channel.Fresh.setDecay (h : c.Fresh cfg) (t : F) : (c.setDecay cfg t).Fresh cfg :=
  (h.withLines (h.mapLines fun _ hl => hl.setFb _)).withRegs _ _ _ t _ _ _ _

/-- R326: a cross seed reaches the multitap and every diffuser, and each is derived again. -/
theorem Channel.Fresh.setX (h : c.Fresh cfg) (x : F) : (c.setX cfg x).Fresh cfg :=
  (((h.withMt (h.mt.setX x)).withEd (Diffuser.fresh_setX h.ed.seedV_wf x)).withLines
    (h.mapLines fun _ hl => hl.withDf (Diffuser.fresh_setX hl.df.seedV_wf x))).withRegs _ _ _ _ _ _ _ x

theorem Channel.Fresh.clear (h : c.Fresh cfg) : c.clear.Fresh cfg :=
  ⟨h.hp.clear, h.lp.clear, h.pre.clear _, h.mt.clear, h.ed.clear, h.mapLines fun _ hl => hl.clear⟩

/-- R363: `ApplyConfig` leaves no stale value of a channel, whatever it held before, a blank one included (R430). -/
theorem Channel.fresh_apply (h : c.SeedsWf) (k : Config.ChannelConfig) : (applyConfig cfg c k).Fresh cfg := by
  have hbelow : (applyBelow cfg c k).Fresh cfg := {
    hp := OnePole.coherent_setFc cfg c.hp k.hpFc
    lp := OnePole.coherent_setFc cfg c.lp k.lpFc
    pre := coherent_applyDelay cfg c.pre k.pre
    mt := Multitap.fresh_apply h.mt k.mt
    ed := Diffuser.fresh_apply h.ed k.ed
    line := fun j => by
      simp only [applyBelow, getElem_vecOf12]
      exact DelayLine.fresh_apply (h.df j) k.line[j] }
  exact (hbelow.setX _).setDecay _

end

theorem blankChannel_seedsWf : blankChannel.SeedsWf where
  mt := ⟨rfl, rfl, rfl⟩
  ed := rfl
  df j := by
    simp only [blankChannel, getElem_vecOf12]
    rfl

end

end Sys2Proof.Machine
end

section
/-! Every step leaves no stale derived value (spec/20_memory.md R85), one arm per command: the settings because they derive
again what depends on them, the samples because they change no register that anything derives from but the phase, which
takes its taps along. -/

namespace Sys2Proof.Machine

/-! ## The state -/

/-- No derived value of either channel is stale, and every operation keeps it so. -/
def State.Fresh (s : State) : Prop := ∀ sd, (s.chan sd).Fresh Config.chip

theorem State.fresh_of_legal {s : State} (hl : s.Legal) (hc : s.Coherent) : s.Fresh
  | .L => Channel.fresh_of_legal hl.left hc.left
  | .R => Channel.fresh_of_legal hl.right hc.right

section
variable {s : State}

theorem State.Fresh.coherent (h : s.Fresh) : s.Coherent := ⟨(h .L).coherent, (h .R).coherent⟩

/-- A change outside the channels. -/
theorem State.Fresh.of_chan (h : s.Fresh) {t : State} (e : ∀ sd, t.chan sd = s.chan sd) : t.Fresh := fun sd => by
  rw [e sd]
  exact h sd

theorem State.Fresh.raise (h : s.Fresh) (c : FaultCause) : (s.raise c).Fresh := h.of_chan (s.chan_raise c)

theorem State.Fresh.setRes (h : s.Fresh) (v : Word) : (s.setRes v).Fresh := h.of_chan (s.chan_setRes v)

theorem State.Fresh.setChan (h : s.Fresh) (sd : Side) {c : Channel} (hc : c.Fresh Config.chip) :
    (s.setChan sd c).Fresh := fun sd' => by
  rw [State.chan_setChan]
  split
  · exact hc
  · exact h sd'

theorem State.Fresh.line (h : s.Fresh) (sd : Side) (j : Fin 12) : (s.line sd j).Fresh Config.chip := (h sd).line j

theorem State.Fresh.setLine (h : s.Fresh) (sd : Side) (j : Fin 12) {l : DelayLine} (hl : l.Fresh Config.chip) :
    (s.setLine sd j l).Fresh := h.setChan sd ((h sd).setLine j hl)

theorem State.Fresh.lp1 (h : s.Fresh) (r : Lp1Ref) : (s.lp1 r).Coherent Config.chip := by
  cases r with
  | chan sd => exact (h sd).lp
  | damp sd j => exact (h.line sd j).damp

theorem State.Fresh.setLp1 (h : s.Fresh) (r : Lp1Ref) {f : OnePole} (hf : f.Coherent Config.chip) :
    (s.setLp1 r f).Fresh := by
  cases r with
  | chan sd => exact h.setChan sd ((h sd).withLp hf)
  | damp sd j => exact h.setLine sd j ((h.line sd j).withDamp hf)

theorem State.Fresh.setHp1 (h : s.Fresh) (sd : Side) {f : OnePole} (hf : f.Coherent Config.chip) :
    (s.setHp1 sd f).Fresh := h.setChan sd ((h sd).withHp hf)

theorem State.Fresh.shelf (h : s.Fresh) (r : ShelfRef) : (s.shelf r).Coherent Config.chip r.kind := by
  obtain ⟨sd, j, kind⟩ := r
  cases kind with
  | low => exact (h.line sd j).ls
  | high => exact (h.line sd j).hs

theorem State.Fresh.setShelf (h : s.Fresh) (r : ShelfRef) {f : Shelf} (hf : f.Coherent Config.chip r.kind) :
    (s.setShelf r f).Fresh := by
  obtain ⟨sd, j, kind⟩ := r
  cases kind with
  | low => exact h.setLine sd j ((h.line sd j).withLs hf)
  | high => exact h.setLine sd j ((h.line sd j).withHs hf)

theorem State.Fresh.setMtap (h : s.Fresh) (sd : Side) {f : Multitap} (hf : f.Fresh Config.chip) :
    (s.setMtap sd f).Fresh := h.setChan sd ((h sd).withMt hf)

theorem State.Fresh.diff (h : s.Fresh) (r : DiffRef) : (s.diff r).Fresh Config.chip := by
  cases r with
  | early sd => exact (h sd).ed
  | line sd j => exact (h.line sd j).df

theorem State.Fresh.setDiff (h : s.Fresh) (r : DiffRef) {d : Diffuser} (hd : d.Fresh Config.chip) :
    (s.setDiff r d).Fresh := by
  cases r with
  | early sd => exact h.setChan sd ((h sd).withEd hd)
  | line sd j => exact h.setLine sd j ((h.line sd j).withDf hd)

theorem State.Fresh.map (h : s.Fresh) (r : MapRef) : (s.map r).core.Coherent Config.chip :=
  (h.diff r.diff).coherent.stage r.k

theorem State.Fresh.setMap (h : s.Fresh) (r : MapRef) {a : Allpass} (ha : a.core.Coherent Config.chip) :
    (s.setMap r a).Fresh := h.setDiff r.diff ((h.diff r.diff).setStage r.k ha)

theorem State.Fresh.mdly (h : s.Fresh) (r : MdlyRef) : (s.mdly r).Coherent Config.chip := by
  cases r with
  | pre sd => exact (h sd).pre
  | line sd j => exact (h.line sd j).delay

theorem State.Fresh.setMdly (h : s.Fresh) (r : MdlyRef) {u : ModDelay} (hu : u.Coherent Config.chip) :
    (s.setMdly r u).Fresh := by
  cases r with
  | pre sd => exact h.setChan sd ((h sd).withPre hu)
  | line sd j => exact h.setLine sd j ((h.line sd j).withDelay hu)

theorem State.Fresh.putBlock (h : s.Fresh) (b : Fin 4) (o : List F) : (s.putBlock b o).Fresh :=
  h.of_chan (s.chan_putBlock b o)

theorem State.Fresh.procLine (h : s.Fresh) (sd : Side) (j : Fin 12) (n : Nat) : (s.procLine sd j n).Fresh :=
  (h.setLine sd j ((h.line sd j).proc _)).putBlock _ _

theorem State.Fresh.procChan (h : s.Fresh) (sd : Side) (n : Nat) : (s.procChan sd n).Fresh :=
  (h.setChan sd ((h sd).proc _)).putBlock _ _

/-- Both channels replaced. -/
theorem State.fresh_withChannels (s : State) (e : Engine) {l r : Channel} (hl : l.Fresh Config.chip)
    (hr : r.Fresh Config.chip) : ({ s with eng := e, left := l, right := r } : State).Fresh
  | .L => hl
  | .R => hr

theorem State.Fresh.procFrames (h : s.Fresh) (n : Nat) : (s.procFrames n).Fresh :=
  ((s.fresh_withChannels s.eng ((h .L).proc _) ((h .R).proc _)).putBlock _ _).putBlock _ _

theorem State.Fresh.clearChannels (h : s.Fresh) : s.clearChannels.Fresh :=
  s.fresh_withChannels s.eng (h .L).clear (h .R).clear

/-- R353: the pass derives every value of both channels again. -/
theorem State.Fresh.engSync (h : s.Fresh) : s.engSync.Fresh := by
  unfold State.engSync
  split
  · exact s.fresh_withChannels _ (Channel.fresh_apply (h .L).seedsWf _) (Channel.fresh_apply (h .R).seedsWf _)
  · exact h

end

/-- R430: no derived value is stale after a reset, from any state. -/
theorem resetWith_fresh (p : Port) (w : Command) (q : List Event) : (resetWith Config.chip p w q).Fresh := fun sd => by
  have hc : (resetChannel Config.chip sd).Fresh Config.chip := Channel.fresh_apply blankChannel_seedsWf _
  cases sd <;> exact hc

/-! ## The commands -/

/-- Every command leaves no stale derived value, whatever its operand is. -/
theorem exec_keeps_fresh {s : State} (h : s.Fresh) (i : Instr) : Leads State.Fresh (exec i s) :=
  have hf := h.raise
  match i with
  | .nop => leads_next h
  | .reset => leads_onPortA hf (leads_next (resetWith_fresh _ _ _))
  | .rdreg .. => leads_onRegs hf fun _ => leads_putRead hf h.setRes
  | .rdmem .. => leads_onMems hf fun _ => leads_putRead hf h.setRes
  | .clrf => leads_onPortA hf (leads_next (h.of_chan s.chan_clearFaults))
  | .ioWr .. => leads_onIo hf fun _ => leads_check hf fun _ => leads_next (h.of_chan (s.chan_setIo _ _))
  | .ioRd .. => leads_onIo hf fun _ => leads_check hf fun _ => leads_next (h.setRes _)
  | .rngSeed .. => leads_onRng hf (leads_next (h.of_chan (s.chan_setRng _)))
  | .rngNext _ => leads_onRng hf (leads_next ((h.of_chan (s.chan_setRng _)).setRes _))
  | .rbSetSeed .. => leads_onRbuf hf (leads_next (h.of_chan (s.chan_setRbuf _)))
  | .rbSetX .. => leads_onRbuf hf (leads_check hf fun _ => leads_next (h.of_chan (s.chan_setRbuf _)))
  | .rbGen .. => leads_onRbuf hf (leads_check hf fun _ => leads_next (h.of_chan (s.chan_setRbuf _)))
  | .rbGenX .. => leads_onRbuf hf (leads_check hf fun _ => leads_next (h.of_chan (s.chan_setRbuf _)))
  | .lpSetFc .. => leads_onLp1 hf fun r => leads_check hf fun _ => leads_next (h.setLp1 r (OnePole.coherent_setFc _ _ _))
  | .lpStep .. => leads_onLp1 hf fun r => leads_next ((h.setLp1 r ((h.lp1 r).lp1Step _)).setRes _)
  | .lpClr _ => leads_onLp1 hf fun r => leads_next (h.setLp1 r (h.lp1 r).clear)
  | .hpSetFc .. =>
    leads_onHp1 hf fun sd => leads_check hf fun _ => leads_next (h.setHp1 sd (OnePole.coherent_setFc _ _ _))
  | .hpStep .. => leads_onHp1 hf fun sd => leads_next ((h.setHp1 sd ((h sd).hp.hp1Step _)).setRes _)
  | .hpClr _ => leads_onHp1 hf fun sd => leads_next (h.setHp1 sd (h sd).hp.clear)
  | .shSetF .. =>
    leads_onShelf hf fun r => leads_check hf fun _ => leads_next (h.setShelf r (Shelf.coherent_setF _ _ _ _))
  | .shSetG .. =>
    leads_onShelf hf fun r => leads_check hf fun _ => leads_next (h.setShelf r (Shelf.coherent_setG _ _ _ _))
  | .shStep .. => leads_onShelf hf fun r => leads_next ((h.setShelf r ((h.shelf r).step _)).setRes _)
  | .shClr _ => leads_onShelf hf fun r => leads_next (h.setShelf r (h.shelf r).clear)
  | .apSetDly .. =>
    leads_onMap hf fun r => leads_check hf fun _ => leads_next (h.setMap r (ModDelay.coherent_setDly _ _ _))
  | .apSetFb .. => leads_onMap hf fun r => leads_check hf fun _ => leads_next (h.setMap r (h.map r))
  | .apSetModA .. =>
    leads_onMap hf fun r => leads_check hf fun _ => leads_next (h.setMap r (ModDelay.coherent_setModA _ _ _))
  | .apSetModR .. => leads_onMap hf fun r => leads_check hf fun _ => leads_next (h.setMap r ((h.map r).setModR _))
  | .apSetInterp .. => leads_onMap hf fun r => leads_check hf fun _ => leads_next (h.setMap r (h.map r))
  | .apSetModEn .. => leads_onMap hf fun r => leads_check hf fun _ => leads_next (h.setMap r (h.map r))
  | .apStep .. => leads_onMap hf fun r => leads_next ((h.setMap r (Allpass.coherent_step (h.map r) _)).setRes _)
  | .apClr _ => leads_onMap hf fun r => leads_next (h.setMap r ((h.map r).clear _))
  | .dfSetStages .. => leads_onDiff hf fun r => leads_check hf fun _ => leads_next (h.setDiff r ((h.diff r).setStages _))
  | .dfSetDly .. => leads_onDiff hf fun r => leads_check hf fun _ => leads_next (h.setDiff r ((h.diff r).setDly _))
  | .dfSetFb .. => leads_onDiff hf fun r => leads_check hf fun _ => leads_next (h.setDiff r ((h.diff r).setFb _))
  | .dfSetModA .. => leads_onDiff hf fun r => leads_check hf fun _ => leads_next (h.setDiff r ((h.diff r).setModA _))
  | .dfSetModR .. => leads_onDiff hf fun r => leads_check hf fun _ => leads_next (h.setDiff r ((h.diff r).setModR _))
  | .dfSetSeed .. => leads_onDiff hf fun r => leads_next (h.setDiff r ((h.diff r).setSeed _))
  | .dfSetX .. =>
    leads_onDiff hf fun r => leads_check hf fun _ => leads_next (h.setDiff r (Diffuser.fresh_setX (h.diff r).seedV_wf _))
  | .dfSetInterp .. => leads_onDiff hf fun r => leads_check hf fun _ => leads_next (h.setDiff r ((h.diff r).setInterp _))
  | .dfSetModEn .. => leads_onDiff hf fun r => leads_check hf fun _ => leads_next (h.setDiff r ((h.diff r).setModEn _))
  | .dfStep .. => leads_onDiff hf fun r => leads_next ((h.setDiff r ((h.diff r).step _)).setRes _)
  | .dfClr _ => leads_onDiff hf fun r => leads_next (h.setDiff r (h.diff r).clear)
  | .mdSetDly .. =>
    leads_onMdly hf fun r => leads_check hf fun _ => leads_next (h.setMdly r (ModDelay.coherent_setDly _ _ _))
  | .mdSetModA .. =>
    leads_onMdly hf fun r => leads_check hf fun _ => leads_next (h.setMdly r (ModDelay.coherent_setModA _ _ _))
  | .mdSetModR .. => leads_onMdly hf fun r => leads_check hf fun _ => leads_next (h.setMdly r ((h.mdly r).setModR _))
  | .mdStep .. => leads_onMdly hf fun r => leads_next ((h.setMdly r ((h.mdly r).step _)).setRes _)
  | .mdClr _ => leads_onMdly hf fun r => leads_next (h.setMdly r ((h.mdly r).clear _))
  | .mtSetTaps .. => leads_onMtap hf fun sd => leads_check hf fun _ => leads_next (h.setMtap sd ((h sd).mt.setTaps _))
  | .mtSetLen .. => leads_onMtap hf fun sd => leads_check hf fun _ => leads_next (h.setMtap sd ((h sd).mt.setLen _))
  | .mtSetDecay .. => leads_onMtap hf fun sd => leads_check hf fun _ => leads_next (h.setMtap sd ((h sd).mt.setDecay _))
  | .mtSetSeed .. => leads_onMtap hf fun sd => leads_next (h.setMtap sd ((h sd).mt.setSeed _))
  | .mtSetX .. => leads_onMtap hf fun sd => leads_check hf fun _ => leads_next (h.setMtap sd ((h sd).mt.setX _))
  | .mtStep .. => leads_onMtap hf fun sd => leads_next ((h.setMtap sd ((h sd).mt.step _)).setRes _)
  | .mtClr _ => leads_onMtap hf fun sd => leads_next (h.setMtap sd (h sd).mt.clear)
  | .dlSetFb .. => leads_onLine hf fun sd j => leads_check hf fun _ => leads_next (h.setLine sd j ((h.line sd j).setFb _))
  | .dlSetFlags .. =>
    leads_onLine hf fun sd j => leads_check hf fun _ => leads_next (h.setLine sd j ((h.line sd j).setFlags _))
  | .dlProc .. => leads_onLine hf fun sd j => leads_check hf fun _ => leads_next (h.procLine sd j _)
  | .dlClr _ => leads_onLine hf fun sd j => leads_next (h.setLine sd j (h.line sd j).clear)
  | .chSetInMix .. =>
    leads_onChan hf fun sd => leads_check hf fun _ => leads_next (h.setChan sd ((h sd).withRegs _ _ _ _ _ _ _ _))
  | .chSetFlags .. =>
    leads_onChan hf fun sd => leads_check hf fun _ => leads_next (h.setChan sd ((h sd).withRegs _ _ _ _ _ _ _ _))
  | .chSetLines .. =>
    leads_onChan hf fun sd => leads_check hf fun _ => leads_next (h.setChan sd ((h sd).withRegs _ _ _ _ _ _ _ _))
  | .chSetDecay .. => leads_onChan hf fun sd => leads_check hf fun _ => leads_next (h.setChan sd ((h sd).setDecay _))
  | .chSetDry .. =>
    leads_onChan hf fun sd => leads_check hf fun _ => leads_next (h.setChan sd ((h sd).withRegs _ _ _ _ _ _ _ _))
  | .chSetEarly .. =>
    leads_onChan hf fun sd => leads_check hf fun _ => leads_next (h.setChan sd ((h sd).withRegs _ _ _ _ _ _ _ _))
  | .chSetLineOut .. =>
    leads_onChan hf fun sd => leads_check hf fun _ => leads_next (h.setChan sd ((h sd).withRegs _ _ _ _ _ _ _ _))
  | .chSetX .. => leads_onChan hf fun sd => leads_check hf fun _ => leads_next (h.setChan sd ((h sd).setX _))
  | .chProc .. => leads_onChan hf fun sd => leads_check hf fun _ => leads_next (h.procChan sd _)
  | .chClr _ => leads_onChan hf fun sd => leads_next (h.setChan sd (h sd).clear)
  | .enSetP .. => leads_onEngAny hf (leads_check hf fun _ => leads_next (h.of_chan (s.chan_setEng _)))
  | .enGetP .. => leads_onEngAny hf (leads_check hf fun _ => leads_next (h.setRes _))
  | .enProc .. => leads_onEng hf (leads_check hf fun _ => leads_next (h.engSync.procFrames _))
  | .enClr _ => leads_onEng hf (leads_next h.clearChannels)
  | .enSync _ => leads_onEng hf (leads_next h.engSync)
  | .fnR2d .. => leads_onFn hf (leads_next (h.setRes _))
  | .fnR3d .. => leads_onFn hf (leads_next (h.setRes _))
  | .fnR4o .. => leads_onFn hf (leads_next (h.setRes _))
  | .fnDb2Lin .. => leads_onFn hf (leads_next (h.setRes _))

/-- One step leaves no stale derived value, whatever the event is. -/
theorem step_keeps_fresh {s : State} (h : s.Fresh) : Leads State.Fresh (step s) := by
  unfold step
  split
  · exact leads_next h
  · exact leads_next (resetWith_fresh _ _ _)
  · next p w q _ =>
    have ha : (s.accept p w q).Fresh := h.of_chan (s.chan_accept p w q)
    split
    · exact exec_keeps_fresh ha _
    · exact leads_next (ha.raise _)

/-- Settles O59: a legal state with no stale value is `Fresh`, every step keeps that, and it says all of `Coherent`. -/
theorem coherentKept : Obligations.CoherentKept := by
  unfold Obligations.CoherentKept
  intro s t hl hc ht
  exact (step_keeps_fresh (State.fresh_of_legal hl hc) t ht).coherent

end Sys2Proof.Machine
end

section
/-! A setting made twice (spec/20_memory.md R76): each unit's operation on the unit it has left. -/

namespace Sys2Proof.Machine

/-- A bit set again to the same value. -/
theorem putBit_putBit {n : Nat} (b : BitVec n) (k : Nat) (v : Bool) : putBit (putBit b k v) k v = putBit b k v := by
  cases v with
  | false => simp only [putBit, Bool.false_eq_true, if_false, BitVec.and_assoc, BitVec.and_self]
  | true => simp only [putBit, if_true, BitVec.or_assoc, BitVec.or_self]

/-- An operation that repeats at every place of a vector repeats on the vector. -/
theorem vecMap_vecMap_self {α : Type} {n : Nat} {f : α → α} {v : Vector α n} (h : ∀ j : Fin n, f (f v[j]) = f v[j]) :
    vecMap f (vecMap f v) = vecMap f v := by
  apply Vector.ext
  intro i hi
  have hplace (w : Vector α n) : (vecMap f w)[i] = f w[i] := getElem_vecMap f w ⟨i, hi⟩
  rw [hplace, hplace]
  exact h ⟨i, hi⟩

/-- Every place holds what the function gives for it. -/
theorem vecOf12_eq_self {α : Type} {f : Fin 12 → α} {v : Vector α 12} (h : ∀ k : Fin 12, f k = v[k]) : vecOf12 f = v := by
  apply Vector.ext
  intro i hi
  have hplace : (vecOf12 f)[i] = f ⟨i, hi⟩ := getElem_vecOf12 f ⟨i, hi⟩
  rw [hplace]
  exact h ⟨i, hi⟩

/-- Words written that are there already. -/
theorem memWriteList_of_memReadList {m : Mem} (h : Memory.wf m = true) {i : Nat} {vs : List Word}
    (hvs : memReadList m i vs.length = vs) : memWriteList m i vs = m := by
  refine mem_ext (wf_memWriteList h i vs) h fun a => ?_
  rw [memRead_memWriteList h]
  split
  · next ha =>
    obtain ⟨j, rfl⟩ := Nat.exists_eq_add_of_le ha
    rw [Nat.add_sub_cancel_left]
    obtain hj | hj := lt_or_ge j vs.length
    · have hread : (memReadList m i vs.length)[j]? = some (memRead m (i + j)) := by
        rw [memReadList, List.getElem?_map, List.getElem?_range hj, Option.map_some]
      rw [← hvs, hread, Option.getD_some]
    · rw [List.getElem?_eq_none hj, Option.getD_none]
  · rfl

/-- The values of a function written where they are already. -/
theorem memWriteList_range_eq_self {m : Mem} (h : Memory.wf m = true) {f : Nat → Word} {n : Nat}
    (hf : ∀ i, i < n → memRead m i = f i) : memWriteList m 0 ((List.range n).map f) = m := by
  apply memWriteList_of_memReadList h
  rw [List.length_map, List.length_range, memReadList]
  exact List.map_congr_left fun i hi => by rw [Nat.zero_add, hf i (List.mem_range.1 hi)]

/-! ## A modulated delay -/

section
variable {cfg : Config.Params} {u : ModDelay}

/-- R196: `TAPCALC` of taps that agree changes nothing. -/
theorem ModDelay.retap_eq_self (h : u.Coherent cfg) : u.retap cfg = u := by
  rw [ModDelay.retap, ← h]

theorem ModDelay.Coherent.setDly_eq_self (h : u.Coherent cfg) {n : Nat} (he : u.dly = n) : u.setDly cfg n = u := by
  subst he
  exact ModDelay.retap_eq_self h

theorem ModDelay.Coherent.setModA_eq_self (h : u.Coherent cfg) {a : F} (he : u.modA = a) : u.setModA cfg a = u := by
  subst he
  exact ModDelay.retap_eq_self h

theorem ModDelay.setDly_setDly (u : ModDelay) (n : Nat) : (u.setDly cfg n).setDly cfg n = u.setDly cfg n :=
  (ModDelay.coherent_setDly cfg u n).setDly_eq_self rfl

theorem ModDelay.setModA_setModA (u : ModDelay) (a : F) : (u.setModA cfg a).setModA cfg a = u.setModA cfg a :=
  (ModDelay.coherent_setModA cfg u a).setModA_eq_self rfl

end

/-! ## An all-pass stage -/

theorem Allpass.setDly_setDly (cfg : Config.Params) (u : Allpass) (n : Nat) :
    (u.setDly cfg n).setDly cfg n = u.setDly cfg n :=
  congrArg (fun c => { u with core := c }) (ModDelay.setDly_setDly u.core n)

theorem Allpass.setModA_setModA (cfg : Config.Params) (u : Allpass) (a : F) :
    (u.setModA cfg a).setModA cfg a = u.setModA cfg a :=
  congrArg (fun c => { u with core := c }) (ModDelay.setModA_setModA u.core a)

theorem Allpass.setInterp_setInterp (u : Allpass) (b : Bool) : (u.setInterp b).setInterp b = u.setInterp b :=
  congrArg (fun f => { u with flags := f }) (putBit_putBit u.flags 0 b)

theorem Allpass.setModEn_setModEn (u : Allpass) (b : Bool) : (u.setModEn b).setModEn b = u.setModEn b :=
  congrArg (fun f => { u with flags := f }) (putBit_putBit u.flags 1 b)

section
variable {cfg : Config.Params}

/-- The three registers that a diffuser derives, after `TAPCALC`. -/
theorem ModDelay.retap_withMod_regs (cfg : Config.Params) (u : ModDelay) (n : Nat) (x y : F) :
    (({ u with dly := n, modA := x, modR := y } : ModDelay).retap cfg).dly = n ∧
    (({ u with dly := n, modA := x, modR := y } : ModDelay).retap cfg).modA = x ∧
    (({ u with dly := n, modA := x, modR := y } : ModDelay).retap cfg).modR = y := ⟨rfl, rfl, rfl⟩

theorem deriveStage_core (cfg : Config.Params) (d : Diffuser) (k : Nat) (s : Allpass) :
    (deriveStage cfg d k s).core = ({ s.core with
      dly := stageDelay cfg d.dly (memRead d.seedV k)
      modA := fmul d.modA (stageFactor (memRead d.seedV (12 + k)))
      modR := fmul d.modR (stageFactor (memRead d.seedV (24 + k))) } : ModDelay).retap cfg := by
  rw [deriveStage]

/-- R223: the registers that `DIFF_update` gives a stage. -/
theorem deriveStage_regs (cfg : Config.Params) (d : Diffuser) (k : Nat) (s : Allpass) :
    (deriveStage cfg d k s).core.dly = stageDelay cfg d.dly (memRead d.seedV k) ∧
    (deriveStage cfg d k s).core.modA = fmul d.modA (stageFactor (memRead d.seedV (12 + k))) ∧
    (deriveStage cfg d k s).core.modR = fmul d.modR (stageFactor (memRead d.seedV (24 + k))) := by
  rw [deriveStage_core]
  exact ModDelay.retap_withMod_regs cfg _ _ _ _

/-- A stage that has its derived registers is left alone. -/
theorem deriveStage_eq_self {d : Diffuser} {k : Nat} {s : Allpass}
    (hdly : s.core.dly = stageDelay cfg d.dly (memRead d.seedV k))
    (hmodA : s.core.modA = fmul d.modA (stageFactor (memRead d.seedV (12 + k))))
    (hmodR : s.core.modR = fmul d.modR (stageFactor (memRead d.seedV (24 + k)))) (ht : s.core.Coherent cfg) :
    deriveStage cfg d k s = s := by
  rw [deriveStage, ← hdly, ← hmodA, ← hmodR, ModDelay.retap_eq_self ht]

end

/-! ## A diffuser -/

section
variable {cfg : Config.Params} {d : Diffuser}

theorem Diffuser.update_dly (cfg : Config.Params) (d : Diffuser) : (d.update cfg).dly = d.dly := by
  simp only [Diffuser.update, Diffuser.deriveStages, Diffuser.draw]

theorem Diffuser.update_modA (cfg : Config.Params) (d : Diffuser) : (d.update cfg).modA = d.modA := by
  simp only [Diffuser.update, Diffuser.deriveStages, Diffuser.draw]

theorem Diffuser.update_modR (cfg : Config.Params) (d : Diffuser) : (d.update cfg).modR = d.modR := by
  simp only [Diffuser.update, Diffuser.deriveStages, Diffuser.draw]

theorem Diffuser.draw_regs (cfg : Config.Params) (d : Diffuser) : (d.draw cfg).seedV = (d.update cfg).seedV ∧
    (d.draw cfg).dly = d.dly ∧ (d.draw cfg).modA = d.modA ∧ (d.draw cfg).modR = d.modR :=
  ⟨by rw [Diffuser.draw_seedV, Diffuser.update_seedV], by simp only [Diffuser.draw], by simp only [Diffuser.draw],
    by simp only [Diffuser.draw]⟩

/-- R223: `DIFF_update` leaves a diffuser whose random values and stages are the function of its registers. -/
theorem Diffuser.derived_update (cfg : Config.Params) {d : Diffuser} (h : Memory.wf d.seedV = true) :
    (d.update cfg).Derived cfg := by
  have hfresh := Diffuser.fresh_update cfg h
  have hstage (k : Fin 12) : (d.update cfg).stage[k] = deriveStage cfg (d.draw cfg) k.val d.stage[k] := by
    rw [Diffuser.update, Diffuser.deriveStages_stage, Diffuser.draw_stage]
  have hregs (k : Fin 12) := deriveStage_regs cfg (d.draw cfg) k.val d.stage[k]
  obtain ⟨hseedV, hdly, hmodA, hmodR⟩ := d.draw_regs cfg
  simp only [hseedV, hdly, hmodA, hmodR, ← hstage] at hregs
  refine ⟨hfresh.coherent.seedV, fun k => ?_, fun k => ?_, fun k => ?_, hfresh.coherent.stage⟩ <;>
    obtain ⟨hkdly, hkmodA, hkmodR⟩ := hregs k
  · rwa [Diffuser.update_dly]
  · rwa [Diffuser.update_modA]
  · rwa [Diffuser.update_modR]

/-- R223: `DIFF_update` of what is derived already changes nothing. -/
theorem Diffuser.Derived.update_eq_self (hd : d.Derived cfg) (h : Memory.wf d.seedV = true) : d.update cfg = d := by
  have hdraw : d.draw cfg = d := by
    rw [Diffuser.draw, memWriteList_of_memReadList h (by rw [length_generateCross, hd.seedV])]
  have hstages : (vecOf12 fun k => deriveStage cfg d k.val d.stage[k]) = d.stage :=
    vecOf12_eq_self fun k => deriveStage_eq_self (hd.dly k) (hd.modA k) (hd.modR k) (hd.taps k)
  rw [Diffuser.update, hdraw, Diffuser.deriveStages, hstages]

/-! The settings that derive again: a register set to the value it has, of a diffuser that is derived already. -/

theorem Diffuser.Derived.setDly_eq_self (hd : d.Derived cfg) (h : Memory.wf d.seedV = true) {n : Nat} (he : d.dly = n) :
    d.setDly cfg n = d := by
  subst he
  exact hd.update_eq_self h

theorem Diffuser.Derived.setModA_eq_self (hd : d.Derived cfg) (h : Memory.wf d.seedV = true) {a : F} (he : d.modA = a) :
    d.setModA cfg a = d := by
  subst he
  exact hd.update_eq_self h

theorem Diffuser.Derived.setModR_eq_self (hd : d.Derived cfg) (h : Memory.wf d.seedV = true) {r : F} (he : d.modR = r) :
    d.setModR cfg r = d := by
  subst he
  exact hd.update_eq_self h

theorem Diffuser.Derived.setSeed_eq_self (hd : d.Derived cfg) (h : Memory.wf d.seedV = true) {seed : Word}
    (he : d.seed = seed) : d.setSeed cfg seed = d := by
  subst he
  exact hd.update_eq_self h

theorem Diffuser.Derived.setX_eq_self (hd : d.Derived cfg) (h : Memory.wf d.seedV = true) {c : F} (he : d.xseed = c) :
    d.setX cfg c = d := by
  subst he
  exact hd.update_eq_self h

theorem Diffuser.setDly_setDly (h : Memory.wf d.seedV = true) (n : Nat) :
    (d.setDly cfg n).setDly cfg n = d.setDly cfg n := by
  have hd := Diffuser.derived_update cfg (d := { d with dly := n }) h
  have hwf := (Diffuser.fresh_update cfg (d := { d with dly := n }) h).seedV_wf
  exact hd.setDly_eq_self hwf (Diffuser.update_dly cfg _)

theorem Diffuser.setModA_setModA (h : Memory.wf d.seedV = true) (a : F) :
    (d.setModA cfg a).setModA cfg a = d.setModA cfg a := by
  have hd := Diffuser.derived_update cfg (d := { d with modA := a }) h
  have hwf := (Diffuser.fresh_update cfg (d := { d with modA := a }) h).seedV_wf
  exact hd.setModA_eq_self hwf (Diffuser.update_modA cfg _)

theorem Diffuser.setModR_setModR (h : Memory.wf d.seedV = true) (r : F) :
    (d.setModR cfg r).setModR cfg r = d.setModR cfg r := by
  have hd := Diffuser.derived_update cfg (d := { d with modR := r }) h
  have hwf := (Diffuser.fresh_update cfg (d := { d with modR := r }) h).seedV_wf
  exact hd.setModR_eq_self hwf (Diffuser.update_modR cfg _)

theorem Diffuser.setSeed_setSeed (h : Memory.wf d.seedV = true) (seed : Word) :
    (d.setSeed cfg seed).setSeed cfg seed = d.setSeed cfg seed := by
  have hd := Diffuser.derived_update cfg (d := { d with seed := seed }) h
  have hwf := (Diffuser.fresh_update cfg (d := { d with seed := seed }) h).seedV_wf
  exact hd.setSeed_eq_self hwf (Diffuser.update_seed cfg _)

theorem Diffuser.setX_setX (h : Memory.wf d.seedV = true) (c : F) :
    (d.setX cfg c).setX cfg c = d.setX cfg c := by
  have hd := Diffuser.derived_update cfg (d := { d with xseed := c }) h
  have hwf := (Diffuser.fresh_update cfg (d := { d with xseed := c }) h).seedV_wf
  exact hd.setX_eq_self hwf (Diffuser.update_xseed cfg _)

theorem Diffuser.setFb_setFb (d : Diffuser) (g : F) : (d.setFb g).setFb g = d.setFb g := by
  have hstage := vecMap_vecMap_self (f := (·.setFb g)) (v := d.stage) fun _ => rfl
  simp only [Diffuser.setFb, hstage]

theorem Diffuser.setInterp_setInterp (d : Diffuser) (b : Bool) : (d.setInterp b).setInterp b = d.setInterp b := by
  have hstage := vecMap_vecMap_self (f := (·.setInterp b)) (v := d.stage) fun _ => Allpass.setInterp_setInterp _ b
  simp only [Diffuser.setInterp, putBit_putBit, hstage]

theorem Diffuser.setModEn_setModEn (d : Diffuser) (b : Bool) : (d.setModEn b).setModEn b = d.setModEn b := by
  have hstage := vecMap_vecMap_self (f := (·.setModEn b)) (v := d.stage) fun _ => Allpass.setModEn_setModEn _ b
  simp only [Diffuser.setModEn, putBit_putBit, hstage]

end

/-! ## A multitap delay -/

section
variable {cfg : Config.Params} {u : Multitap}

/-- R273: `MTAP_update` of what is derived already changes nothing. -/
theorem Multitap.Fresh.update_eq_self (h : u.Fresh cfg) : u.update cfg = u := by
  have hdraw : u.draw cfg = u := by
    rw [Multitap.draw, memWriteList_of_memReadList h.wf.seedV (by rw [length_generateCross, h.coherent.seedV])]
  rw [Multitap.update, hdraw, Multitap.deriveTaps, memWriteList_range_eq_self h.wf.tapGain h.coherent.tapGain,
    memWriteList_range_eq_self h.wf.tapPos h.coherent.tapPos]

theorem Multitap.Fresh.setSeed_eq_self (h : u.Fresh cfg) {seed : Word} (he : u.seed = seed) : u.setSeed cfg seed = u := by
  subst he
  exact h.update_eq_self

theorem Multitap.Fresh.setX_eq_self (h : u.Fresh cfg) {c : F} (he : u.xseed = c) : u.setX cfg c = u := by
  subst he
  exact h.update_eq_self

theorem Multitap.setSeed_setSeed (h : u.SeedsWf) (seed : Word) :
    (u.setSeed cfg seed).setSeed cfg seed = u.setSeed cfg seed := by
  have hu := Multitap.fresh_update cfg (u := { u with seed := seed }) ⟨h.seedV, h.tapGain, h.tapPos⟩
  exact hu.setSeed_eq_self (Multitap.update_seed cfg _)

theorem Multitap.setX_setX (h : u.SeedsWf) (c : F) : (u.setX cfg c).setX cfg c = u.setX cfg c := by
  have hu := Multitap.fresh_update cfg (u := { u with xseed := c }) ⟨h.seedV, h.tapGain, h.tapPos⟩
  exact hu.setX_eq_self (Multitap.update_xseed cfg _)

end

/-! ## A channel and the engine -/

section
variable {cfg : Config.Params} {c : Channel}

/-- R322: the gain of a line depends on its base delay, which the setting leaves. -/
theorem Channel.setDecay_setDecay (c : Channel) (t : F) : (c.setDecay cfg t).setDecay cfg t = c.setDecay cfg t := by
  have hline := vecMap_vecMap_self (f := fun l : DelayLine => l.setFb (lineFb cfg l.delay.dly t)) (v := c.line) fun _ => rfl
  simp only [Channel.setDecay, hline]

/-- R326: each of the units below draws the same values again. -/
theorem Channel.setX_setX (h : c.SeedsWf) (x : F) : (c.setX cfg x).setX cfg x = c.setX cfg x := by
  have hline : vecMap (fun l : DelayLine => { l with df := l.df.setX cfg x })
      (vecMap (fun l : DelayLine => { l with df := l.df.setX cfg x }) c.line) =
      vecMap (fun l : DelayLine => { l with df := l.df.setX cfg x }) c.line :=
    vecMap_vecMap_self fun j => congrArg (fun d => { c.line[j] with df := d }) (Diffuser.setX_setX (h.df j) x)
  simp only [Channel.setX, Multitap.setX_setX h.mt, Diffuser.setX_setX h.ed, hline]

theorem Engine.setParam_setParam (e : Engine) (k : Nat) (v : F) : (e.setParam k v).setParam k v = e.setParam k v := by
  simp only [Engine.setParam, Vector.setIfInBounds_setIfInBounds, Bool.or_assoc, Bool.or_self]

end

end Sys2Proof.Machine
end

section
/-! A command issued twice (spec/20_memory.md R76): what the checks, the selection of a unit and the update of a unit add to
the operation on the unit. -/

namespace Sys2Proof.Machine

/-- At `s` the command's second issue, with no event between, changes nothing more; and it keeps the port, so that the
second issue arrives where the first did. -/
def IdemAt (e : State → Out) (s : State) : Prop := ∀ t, e s = .next t → t.port = s.port ∧ e t = .next t

/-- A fault raised again (R402): the sticky bit is set, the code and the word are those of the same command. -/
@[simp] theorem State.raise_raise (s : State) (c : FaultCause) : (s.raise c).raise c = s.raise c := by
  simp only [State.raise, BitVec.or_assoc, BitVec.or_self]

section
variable {s : State}

theorem idemAt_next {f : State → State} (hp : (f s).port = s.port) (hf : f (f s) = f s) :
    IdemAt (fun s => .next (f s)) s := by
  rintro _ ⟨⟩
  exact ⟨hp, congrArg _ hf⟩

theorem idemAt_fail (c : FaultCause) : IdemAt (fail c) s := idemAt_next (s.raise_port c) (s.raise_raise c)

theorem idemAt_check {ok : Bool} {c : FaultCause} {k : State → Out} (hk : IdemAt k s) :
    IdemAt (fun s => check ok c s (k s)) s := by
  cases ok with
  | true => exact hk
  | false => exact idemAt_fail c

theorem idemAt_onPortA {k : State → Out} (hk : IdemAt k s) : IdemAt (fun s => onPortA s (k s)) s := fun t h => by
  obtain ⟨hA, h⟩ | ⟨hC, rfl⟩ := onPortA_cases h
  · obtain ⟨hp, ht⟩ := hk t h
    exact ⟨hp, (onPortA_A (hp.trans hA) _).trans ht⟩
  · exact ⟨s.raise_port _, by simp only [onPortA_C (s := s.raise .illPort) hC, State.raise_raise]⟩

/-! ## The selection of a unit: the address does not depend on the state -/

section
variable {u : UnitAddr}

theorem idemAt_onRbuf {k : State → Out} (hk : IdemAt k s) : IdemAt (fun s => onRbuf u s (k s)) s :=
  idemAt_onPortA (by split <;> [exact hk; exact idemAt_fail _])

theorem idemAt_onEngAny {k : State → Out} (hk : IdemAt k s) : IdemAt (fun s => onEngAny u s (k s)) s := by
  unfold onEngAny
  split <;> [exact hk; exact idemAt_fail _]

theorem idemAt_onLine {k : Side → Fin 12 → State → Out} (hk : ∀ sd j, IdemAt (k sd j) s) :
    IdemAt (fun s => onLine u s fun sd j => k sd j s) s :=
  idemAt_onPortA (by split <;> [exact hk _ _; exact idemAt_fail _])

theorem idemAt_onLp1 {k : Lp1Ref → State → Out} (hk : ∀ r, IdemAt (k r) s) :
    IdemAt (fun s => onLp1 u s fun r => k r s) s :=
  idemAt_onPortA (by split <;> [exact hk _; exact idemAt_fail _])

theorem idemAt_onHp1 {k : Side → State → Out} (hk : ∀ sd, IdemAt (k sd) s) :
    IdemAt (fun s => onHp1 u s fun sd => k sd s) s :=
  idemAt_onPortA (by split <;> [exact hk _; exact idemAt_fail _])

theorem idemAt_onShelf {k : ShelfRef → State → Out} (hk : ∀ r, IdemAt (k r) s) :
    IdemAt (fun s => onShelf u s fun r => k r s) s :=
  idemAt_onPortA (by split <;> [exact hk _; exact idemAt_fail _])

theorem idemAt_onMap {k : MapRef → State → Out} (hk : ∀ r, IdemAt (k r) s) :
    IdemAt (fun s => onMap u s fun r => k r s) s :=
  idemAt_onPortA (by split <;> [exact hk _; exact idemAt_fail _])

theorem idemAt_onDiff {k : DiffRef → State → Out} (hk : ∀ r, IdemAt (k r) s) :
    IdemAt (fun s => onDiff u s fun r => k r s) s :=
  idemAt_onPortA (by split <;> [exact hk _; exact idemAt_fail _])

theorem idemAt_onMdly {k : MdlyRef → State → Out} (hk : ∀ r, IdemAt (k r) s) :
    IdemAt (fun s => onMdly u s fun r => k r s) s :=
  idemAt_onPortA (by split <;> [exact hk _; exact idemAt_fail _])

theorem idemAt_onMtap {k : Side → State → Out} (hk : ∀ sd, IdemAt (k sd) s) :
    IdemAt (fun s => onMtap u s fun sd => k sd s) s :=
  idemAt_onPortA (by split <;> [exact hk _; exact idemAt_fail _])

theorem idemAt_onChan {k : Side → State → Out} (hk : ∀ sd, IdemAt (k sd) s) :
    IdemAt (fun s => onChan u s fun sd => k sd s) s :=
  idemAt_onPortA (by split <;> [exact hk _; exact idemAt_fail _])

end

/-! ## The update of a unit -/

@[simp] theorem Channel.setLine_setLine (c : Channel) (j : Fin 12) (l m : DelayLine) :
    (c.setLine j l).setLine j m = c.setLine j m := by
  simp only [Channel.setLine, Vector.set_set]

@[simp] theorem State.setLine_setLine (s : State) (sd : Side) (j : Fin 12) (l m : DelayLine) :
    (s.setLine sd j l).setLine sd j m = s.setLine sd j m := by
  simp only [State.setLine, State.chan_setChan_self, Channel.setLine_setLine, State.setChan_setChan]

@[simp] theorem Diffuser.setStage_setStage (d : Diffuser) (k : Fin 12) (a b : Allpass) :
    (d.setStage k a).setStage k b = d.setStage k b := by
  simp only [Diffuser.setStage, Vector.set_set]

@[simp] theorem State.setLp1_setLp1 (s : State) (r : Lp1Ref) (f g : OnePole) :
    (s.setLp1 r f).setLp1 r g = s.setLp1 r g := by
  cases r <;> simp [State.setLp1]

@[simp] theorem State.setHp1_setHp1 (s : State) (sd : Side) (f g : OnePole) :
    (s.setHp1 sd f).setHp1 sd g = s.setHp1 sd g := by
  simp [State.setHp1]

@[simp] theorem State.setShelf_setShelf (s : State) (r : ShelfRef) (f g : Shelf) :
    (s.setShelf r f).setShelf r g = s.setShelf r g := by
  obtain ⟨sd, j, kind⟩ := r
  cases kind <;> simp [State.setShelf]

@[simp] theorem State.setDiff_setDiff (s : State) (r : DiffRef) (d e : Diffuser) :
    (s.setDiff r d).setDiff r e = s.setDiff r e := by
  cases r <;> simp [State.setDiff]

@[simp] theorem State.setMap_setMap (s : State) (r : MapRef) (a b : Allpass) :
    (s.setMap r a).setMap r b = s.setMap r b := by
  simp [State.setMap]

@[simp] theorem State.setMdly_setMdly (s : State) (r : MdlyRef) (u v : ModDelay) :
    (s.setMdly r u).setMdly r v = s.setMdly r v := by
  cases r <;> simp [State.setMdly]

@[simp] theorem State.setMtap_setMtap (s : State) (sd : Side) (u v : Multitap) :
    (s.setMtap sd u).setMtap sd v = s.setMtap sd v := by
  simp [State.setMtap]

/-- An operation on one unit that changes nothing more the second time, put back into the state: the unit written is read
back, a second write replaces the first, and neither touches the port. -/
theorem idemAt_update {α : Type} {get : State → α} {set : State → α → State} (hget : ∀ a, get (set s a) = a)
    (hset : ∀ a b, set (set s a) b = set s b) (hport : ∀ a, (set s a).port = s.port) {f : α → α}
    (hf : f (f (get s)) = f (get s)) : IdemAt (fun s => .next (set s (f (get s)))) s :=
  idemAt_next (hport _) (by simp only [hget, hset, hf])

theorem idemAt_setRbuf {f : Rbuf → Rbuf} (hf : f (f s.rbuf) = f s.rbuf) :
    IdemAt (fun s => .next (s.setRbuf (f s.rbuf))) s :=
  idemAt_update s.setRbuf_rbuf (fun _ _ => rfl) s.setRbuf_port hf

theorem idemAt_setEng {f : Engine → Engine} (hf : f (f s.eng) = f s.eng) :
    IdemAt (fun s => .next (s.setEng (f s.eng))) s :=
  idemAt_update s.setEng_eng (fun _ _ => rfl) s.setEng_port hf

theorem idemAt_setLine {sd : Side} {j : Fin 12} {f : DelayLine → DelayLine}
    (hf : f (f (s.line sd j)) = f (s.line sd j)) : IdemAt (fun s => .next (s.setLine sd j (f (s.line sd j)))) s :=
  idemAt_update (get := fun s => s.line sd j) (set := fun s l => s.setLine sd j l) (s.line_setLine_self sd j)
    (s.setLine_setLine sd j) (s.setLine_port sd j) hf

theorem idemAt_setLp1 {r : Lp1Ref} {f : OnePole → OnePole} (hf : f (f (s.lp1 r)) = f (s.lp1 r)) :
    IdemAt (fun s => .next (s.setLp1 r (f (s.lp1 r)))) s :=
  idemAt_update (get := fun s => s.lp1 r) (set := fun s x => s.setLp1 r x) (s.lp1_setLp1 r) (s.setLp1_setLp1 r)
    (s.setLp1_port r) hf

theorem idemAt_setHp1 {sd : Side} {f : OnePole → OnePole} (hf : f (f (s.hp1 sd)) = f (s.hp1 sd)) :
    IdemAt (fun s => .next (s.setHp1 sd (f (s.hp1 sd)))) s :=
  idemAt_update (get := fun s => s.hp1 sd) (set := fun s x => s.setHp1 sd x) (s.hp1_setHp1 sd) (s.setHp1_setHp1 sd)
    (s.setHp1_port sd) hf

theorem idemAt_setShelf {r : ShelfRef} {f : Shelf → Shelf} (hf : f (f (s.shelf r)) = f (s.shelf r)) :
    IdemAt (fun s => .next (s.setShelf r (f (s.shelf r)))) s :=
  idemAt_update (get := fun s => s.shelf r) (set := fun s x => s.setShelf r x) (s.shelf_setShelf r)
    (s.setShelf_setShelf r) (s.setShelf_port r) hf

theorem idemAt_setMap {r : MapRef} {f : Allpass → Allpass} (hf : f (f (s.map r)) = f (s.map r)) :
    IdemAt (fun s => .next (s.setMap r (f (s.map r)))) s :=
  idemAt_update (get := fun s => s.map r) (set := fun s x => s.setMap r x) (s.map_setMap r) (s.setMap_setMap r)
    (s.setMap_port r) hf

theorem idemAt_setDiff {r : DiffRef} {f : Diffuser → Diffuser} (hf : f (f (s.diff r)) = f (s.diff r)) :
    IdemAt (fun s => .next (s.setDiff r (f (s.diff r)))) s :=
  idemAt_update (get := fun s => s.diff r) (set := fun s x => s.setDiff r x) (s.diff_setDiff r) (s.setDiff_setDiff r)
    (s.setDiff_port r) hf

theorem idemAt_setMdly {r : MdlyRef} {f : ModDelay → ModDelay} (hf : f (f (s.mdly r)) = f (s.mdly r)) :
    IdemAt (fun s => .next (s.setMdly r (f (s.mdly r)))) s :=
  idemAt_update (get := fun s => s.mdly r) (set := fun s x => s.setMdly r x) (s.mdly_setMdly r) (s.setMdly_setMdly r)
    (s.setMdly_port r) hf

theorem idemAt_setMtap {sd : Side} {f : Multitap → Multitap} (hf : f (f (s.mtap sd)) = f (s.mtap sd)) :
    IdemAt (fun s => .next (s.setMtap sd (f (s.mtap sd)))) s :=
  idemAt_update (get := fun s => s.mtap sd) (set := fun s x => s.setMtap sd x) (s.mtap_setMtap sd) (s.setMtap_setMtap sd)
    (s.setMtap_port sd) hf

theorem idemAt_setChan {sd : Side} {f : Channel → Channel} (hf : f (f (s.chan sd)) = f (s.chan sd)) :
    IdemAt (fun s => .next (s.setChan sd (f (s.chan sd)))) s :=
  idemAt_update (get := fun s => s.chan sd) (set := fun s x => s.setChan sd x) (s.chan_setChan_self sd)
    (s.setChan_setChan sd) (s.setChan_port sd) hf

end

/-! ## The premises: canonical memories of the units that are derived again -/

section
variable {s : State}

theorem State.Legal.chan (h : s.Legal) (sd : Side) : (s.chan sd).Legal := by
  cases sd
  exacts [h.left, h.right]

theorem State.Legal.diff (h : s.Legal) (r : DiffRef) : (s.diff r).Legal := by
  cases r with
  | early sd => exact (h.chan sd).ed
  | line sd j => exact ((h.chan sd).line j).df

theorem Multitap.Legal.seedsWf {u : Multitap} (h : u.Legal) : u.SeedsWf := ⟨h.seedV_wf, h.tapGain_wf, h.tapPos_wf⟩

theorem Channel.Legal.seedsWf {c : Channel} (h : c.Legal) : c.SeedsWf :=
  ⟨h.mt.seedsWf, h.ed.seedV_wf, fun j => (h.line j).df.seedV_wf⟩

/-! ## The commands -/

/-- R76: each `SET` command, issued again, sets the same registers to the same values and derives the same values again. -/
theorem idemAt_of_isSet (h : s.Legal) (i : Instr) (hi : i.isSet = true) : IdemAt (exec i) s := by
  cases i with
  | rbSetSeed u v => exact idemAt_onRbuf (idemAt_setRbuf (f := (·.setSeed v)) rfl)
  | rbSetX u v => exact idemAt_onRbuf (idemAt_check (idemAt_setRbuf (f := (·.setX v)) rfl))
  | lpSetFc u v => exact idemAt_onLp1 fun r => idemAt_check (idemAt_setLp1 (f := (·.setFc _ v)) rfl)
  | hpSetFc u v => exact idemAt_onHp1 fun sd => idemAt_check (idemAt_setHp1 (f := (·.setFc _ v)) rfl)
  | shSetF u v => exact idemAt_onShelf fun r => idemAt_check (idemAt_setShelf (f := (·.setF _ r.kind v)) rfl)
  | shSetG u v => exact idemAt_onShelf fun r => idemAt_check (idemAt_setShelf (f := (·.setG _ r.kind v)) rfl)
  | apSetDly u v =>
    exact idemAt_onMap fun r => idemAt_check (idemAt_setMap (f := (·.setDly _ v.toNat)) (Allpass.setDly_setDly _ _ _))
  | apSetFb u v => exact idemAt_onMap fun r => idemAt_check (idemAt_setMap (f := (·.setFb v)) rfl)
  | apSetModA u v =>
    exact idemAt_onMap fun r => idemAt_check (idemAt_setMap (f := (·.setModA _ v)) (Allpass.setModA_setModA _ _ _))
  | apSetModR u v => exact idemAt_onMap fun r => idemAt_check (idemAt_setMap (f := (·.setModR v)) rfl)
  | apSetInterp u v =>
    exact idemAt_onMap fun r => idemAt_check (idemAt_setMap (f := (·.setInterp _)) (Allpass.setInterp_setInterp _ _))
  | apSetModEn u v =>
    exact idemAt_onMap fun r => idemAt_check (idemAt_setMap (f := (·.setModEn _)) (Allpass.setModEn_setModEn _ _))
  | dfSetStages u v => exact idemAt_onDiff fun r => idemAt_check (idemAt_setDiff (f := (·.setStages v.toNat)) rfl)
  | dfSetDly u v =>
    exact idemAt_onDiff fun r => idemAt_check (idemAt_setDiff (f := (·.setDly _ v.toNat))
      (Diffuser.setDly_setDly (h.diff r).seedV_wf _))
  | dfSetFb u v =>
    exact idemAt_onDiff fun r => idemAt_check (idemAt_setDiff (f := (·.setFb v)) (Diffuser.setFb_setFb _ _))
  | dfSetModA u v =>
    exact idemAt_onDiff fun r => idemAt_check (idemAt_setDiff (f := (·.setModA _ v))
      (Diffuser.setModA_setModA (h.diff r).seedV_wf _))
  | dfSetModR u v =>
    exact idemAt_onDiff fun r => idemAt_check (idemAt_setDiff (f := (·.setModR _ v))
      (Diffuser.setModR_setModR (h.diff r).seedV_wf _))
  | dfSetSeed u v =>
    exact idemAt_onDiff fun r => idemAt_setDiff (f := (·.setSeed _ v)) (Diffuser.setSeed_setSeed (h.diff r).seedV_wf _)
  | dfSetX u v =>
    exact idemAt_onDiff fun r => idemAt_check (idemAt_setDiff (f := (·.setX _ v))
      (Diffuser.setX_setX (h.diff r).seedV_wf _))
  | dfSetInterp u v =>
    exact idemAt_onDiff fun r => idemAt_check (idemAt_setDiff (f := (·.setInterp _)) (Diffuser.setInterp_setInterp _ _))
  | dfSetModEn u v =>
    exact idemAt_onDiff fun r => idemAt_check (idemAt_setDiff (f := (·.setModEn _)) (Diffuser.setModEn_setModEn _ _))
  | mdSetDly u v =>
    exact idemAt_onMdly fun r => idemAt_check (idemAt_setMdly (f := (·.setDly _ v.toNat)) (ModDelay.setDly_setDly _ _))
  | mdSetModA u v =>
    exact idemAt_onMdly fun r => idemAt_check (idemAt_setMdly (f := (·.setModA _ v)) (ModDelay.setModA_setModA _ _))
  | mdSetModR u v => exact idemAt_onMdly fun r => idemAt_check (idemAt_setMdly (f := (·.setModR v)) rfl)
  | mtSetTaps u v => exact idemAt_onMtap fun sd => idemAt_check (idemAt_setMtap (f := (·.setTaps v.toNat)) rfl)
  | mtSetLen u v => exact idemAt_onMtap fun sd => idemAt_check (idemAt_setMtap (f := (·.setLen v.toNat)) rfl)
  | mtSetDecay u v => exact idemAt_onMtap fun sd => idemAt_check (idemAt_setMtap (f := (·.setDecay v)) rfl)
  | mtSetSeed u v =>
    exact idemAt_onMtap fun sd => idemAt_setMtap (f := (·.setSeed _ v))
      (Multitap.setSeed_setSeed (h.chan sd).mt.seedsWf _)
  | mtSetX u v =>
    exact idemAt_onMtap fun sd => idemAt_check (idemAt_setMtap (f := (·.setX _ v))
      (Multitap.setX_setX (h.chan sd).mt.seedsWf _))
  | dlSetFb u v => exact idemAt_onLine fun sd j => idemAt_check (idemAt_setLine (f := (·.setFb v)) rfl)
  | dlSetFlags u v => exact idemAt_onLine fun sd j => idemAt_check (idemAt_setLine (f := (·.setFlags _)) rfl)
  | chSetInMix u v => exact idemAt_onChan fun sd => idemAt_check (idemAt_setChan (f := (·.setInMix v)) rfl)
  | chSetFlags u v => exact idemAt_onChan fun sd => idemAt_check (idemAt_setChan (f := (·.setFlags _)) rfl)
  | chSetLines u v => exact idemAt_onChan fun sd => idemAt_check (idemAt_setChan (f := (·.setLines v.toNat)) rfl)
  | chSetDecay u v =>
    exact idemAt_onChan fun sd => idemAt_check (idemAt_setChan (f := (·.setDecay _ v)) (Channel.setDecay_setDecay _ _))
  | chSetDry u v => exact idemAt_onChan fun sd => idemAt_check (idemAt_setChan (f := (·.setDry v)) rfl)
  | chSetEarly u v => exact idemAt_onChan fun sd => idemAt_check (idemAt_setChan (f := (·.setEarly v)) rfl)
  | chSetLineOut u v => exact idemAt_onChan fun sd => idemAt_check (idemAt_setChan (f := (·.setLineOut v)) rfl)
  | chSetX u v =>
    exact idemAt_onChan fun sd => idemAt_check (idemAt_setChan (f := (·.setX _ v))
      (Channel.setX_setX (h.chan sd).seedsWf _))
  | enSetP u sub v =>
    exact idemAt_onEngAny (idemAt_check (idemAt_setEng (f := (·.setParam sub.toNat v)) (Engine.setParam_setParam _ _ _)))
  | _ => exact absurd hi Bool.false_ne_true

/-- Settles O60: the second issue of a `SET` command answers the state that the first one left. -/
theorem setIdempotent : Obligations.SetIdempotent := by
  unfold Obligations.SetIdempotent
  intro i s t hi hl ht
  exact (idemAt_of_isSet hl i hi t ht).2

end

end Sys2Proof.Machine
end

section
/-! The decoder reads the fields of the command whose opcode the word has (spec/30_encoding.md R100, R101, R106 to
R108). Everything about it follows from one equation, `decode_of_opcode`: a word with the opcode of a command decodes to that
command with the word's own fields, if the fields its format does not use are zero. -/

namespace Sys2Proof

/-! ## The fields that a format does not use (R101, R107) -/

/-- Every field that the format does not use is zero in the word. -/
def Format.unusedZero (f : Format) (w : Command) : Bool :=
  match f with
  | .n => unitField w == 0 && subField w == 0 && immField w == 0
  | .u => subField w == 0 && immField w == 0
  | .ui => subField w == 0
  | .us => immField w == 0
  | .usi => true

/-- The word with the opcode `op`, the fields of `w` that the format uses, and zero in the others. -/
def Format.word (f : Format) (op : BitVec 8) (w : Command) : Command :=
  match f with
  | .n => packCommand op 0 0 0
  | .u => packCommand op (unitField w) 0 0
  | .ui => packCommand op (unitField w) 0 (immField w)
  | .us => packCommand op (unitField w) (subField w) 0
  | .usi => packCommand op (unitField w) (subField w) (immField w)

/-- A word with zero in the unused fields is given by its opcode and the fields in use. -/
theorem Format.word_eq {f : Format} {w : Command} (h : f.unusedZero w = true) : f.word (opcodeField w) w = w := by
  conv_rhs => rw [← packCommand_fields w]
  cases f <;> simp_all [Format.unusedZero, Format.word]

/-- Two words are equal when their fields are (R100). -/
theorem command_eq_iff {v w : Command} :
    v = w ↔ opcodeField v = opcodeField w ∧ unitField v = unitField w ∧ subField v = subField w ∧
      immField v = immField w := by
  constructor
  · rintro rfl
    exact ⟨rfl, rfl, rfl, rfl⟩
  · rintro ⟨hop, hu, hsub, himm⟩
    rw [← packCommand_fields v, ← packCommand_fields w, hop, hu, hsub, himm]

/-- The word of an opcode alone. -/
theorem shiftLeft_opcode (op : BitVec 8) : op.setWidth 64 <<< 56 = packCommand op 0 0 0 := by
  refine command_eq_iff.2 ⟨?_, ?_, ?_, ?_⟩
  · rw [opcodeField_packCommand]
    ext i hi
    simp [opcodeField, hi, show 56 + i < 64 by omega]
  · rw [unitField_packCommand]
    ext i hi
    simp [unitField, show 40 + i < 56 by omega]
  · rw [subField_packCommand]
    ext i hi
    simp [subField, show 32 + i < 56 by omega]
  · rw [immField_packCommand]
    ext i hi
    simp [immField, show i < 56 by omega]

/-- The mask of a format has ones in the opcode and in the unused fields, zeros in the fields in use. -/
theorem mask_eq (f : Format) : f.mask =
    match f with
    | .n => packCommand (.allOnes 8) (.allOnes 16) (.allOnes 8) (.allOnes 32)
    | .u => packCommand (.allOnes 8) 0 (.allOnes 8) (.allOnes 32)
    | .ui => packCommand (.allOnes 8) 0 (.allOnes 8) 0
    | .us => packCommand (.allOnes 8) 0 0 (.allOnes 32)
    | .usi => packCommand (.allOnes 8) 0 0 0 := by
  cases f <;> rfl

/-- R107: a word has its opcode alone under the mask of a format when the unused fields are zero. -/
theorem and_mask_eq_iff (f : Format) (w : Command) :
    w &&& f.mask = (opcodeField w).setWidth 64 <<< 56 ↔ f.unusedZero w = true := by
  have hop : opcodeField (w &&& f.mask) = opcodeField w &&& opcodeField f.mask := BitVec.extractLsb'_and
  have hu : unitField (w &&& f.mask) = unitField w &&& unitField f.mask := BitVec.extractLsb'_and
  have hsub : subField (w &&& f.mask) = subField w &&& subField f.mask := BitVec.extractLsb'_and
  have himm : immField (w &&& f.mask) = immField w &&& immField f.mask := BitVec.extractLsb'_and
  rw [shiftLeft_opcode, command_eq_iff, hop, hu, hsub, himm, mask_eq]
  cases f <;> simp [Format.unusedZero, and_assoc, -BitVec.reduceAllOnes]

/-! ## The arm of an opcode (R106) -/

/-- The command of the same opcode with the fields of the word. -/
def Instr.withFieldsOf (i : Instr) (w : Command) : Instr :=
  let u := unitField w
  let sub := subField w
  let imm := immField w
  match i with
  | .nop => .nop
  | .reset => .reset
  | .rdreg _ _ => .rdreg u sub
  | .rdmem _ _ _ => .rdmem u sub imm
  | .clrf => .clrf
  | .ioWr _ _ _ => .ioWr u sub imm
  | .ioRd _ _ => .ioRd u sub
  | .rngSeed _ _ => .rngSeed u imm
  | .rngNext _ => .rngNext u
  | .rbSetSeed _ _ => .rbSetSeed u imm
  | .rbSetX _ _ => .rbSetX u imm
  | .rbGen _ _ => .rbGen u imm
  | .rbGenX _ _ => .rbGenX u imm
  | .lpSetFc _ _ => .lpSetFc u imm
  | .lpStep _ _ => .lpStep u imm
  | .lpClr _ => .lpClr u
  | .hpSetFc _ _ => .hpSetFc u imm
  | .hpStep _ _ => .hpStep u imm
  | .hpClr _ => .hpClr u
  | .shSetF _ _ => .shSetF u imm
  | .shSetG _ _ => .shSetG u imm
  | .shStep _ _ => .shStep u imm
  | .shClr _ => .shClr u
  | .apSetDly _ _ => .apSetDly u imm
  | .apSetFb _ _ => .apSetFb u imm
  | .apSetModA _ _ => .apSetModA u imm
  | .apSetModR _ _ => .apSetModR u imm
  | .apSetInterp _ _ => .apSetInterp u imm
  | .apSetModEn _ _ => .apSetModEn u imm
  | .apStep _ _ => .apStep u imm
  | .apClr _ => .apClr u
  | .dfSetStages _ _ => .dfSetStages u imm
  | .dfSetDly _ _ => .dfSetDly u imm
  | .dfSetFb _ _ => .dfSetFb u imm
  | .dfSetModA _ _ => .dfSetModA u imm
  | .dfSetModR _ _ => .dfSetModR u imm
  | .dfSetSeed _ _ => .dfSetSeed u imm
  | .dfSetX _ _ => .dfSetX u imm
  | .dfSetInterp _ _ => .dfSetInterp u imm
  | .dfSetModEn _ _ => .dfSetModEn u imm
  | .dfStep _ _ => .dfStep u imm
  | .dfClr _ => .dfClr u
  | .mdSetDly _ _ => .mdSetDly u imm
  | .mdSetModA _ _ => .mdSetModA u imm
  | .mdSetModR _ _ => .mdSetModR u imm
  | .mdStep _ _ => .mdStep u imm
  | .mdClr _ => .mdClr u
  | .mtSetTaps _ _ => .mtSetTaps u imm
  | .mtSetLen _ _ => .mtSetLen u imm
  | .mtSetDecay _ _ => .mtSetDecay u imm
  | .mtSetSeed _ _ => .mtSetSeed u imm
  | .mtSetX _ _ => .mtSetX u imm
  | .mtStep _ _ => .mtStep u imm
  | .mtClr _ => .mtClr u
  | .dlSetFb _ _ => .dlSetFb u imm
  | .dlSetFlags _ _ => .dlSetFlags u imm
  | .dlProc _ _ => .dlProc u imm
  | .dlClr _ => .dlClr u
  | .chSetInMix _ _ => .chSetInMix u imm
  | .chSetFlags _ _ => .chSetFlags u imm
  | .chSetLines _ _ => .chSetLines u imm
  | .chSetDecay _ _ => .chSetDecay u imm
  | .chSetDry _ _ => .chSetDry u imm
  | .chSetEarly _ _ => .chSetEarly u imm
  | .chSetLineOut _ _ => .chSetLineOut u imm
  | .chSetX _ _ => .chSetX u imm
  | .chProc _ _ => .chProc u imm
  | .chClr _ => .chClr u
  | .enSetP _ _ _ => .enSetP u sub imm
  | .enGetP _ _ => .enGetP u sub
  | .enProc _ _ => .enProc u imm
  | .enClr _ => .enClr u
  | .enSync _ => .enSync u
  | .fnR2d _ _ => .fnR2d u imm
  | .fnR3d _ _ => .fnR3d u imm
  | .fnR4o _ _ => .fnR4o u imm
  | .fnDb2Lin _ _ => .fnDb2Lin u imm

/-- R106, R107: what the decoder makes of a word with the opcode of a command. -/
theorem decode_of_opcode (i : Instr) {w : Command} (h : opcodeField w = i.opcode) :
    decode w = ifZero (i.format.unusedZero w) (opcodeField w) (i.withFieldsOf w) := by
  unfold decode
  rw [h]
  cases i <;> rfl

@[simp] theorem opcodeField_encode (i : Instr) : opcodeField (encode i) = i.opcode := by
  cases i <;> exact opcodeField_packCommand _ _ _ _

@[simp] theorem unusedZero_encode (i : Instr) : i.format.unusedZero (encode i) = true := by
  cases i <;> simp [Instr.format, Format.unusedZero, encode]

/-- The fields a command uses are those of its word. -/
@[simp] theorem withFieldsOf_encode (i : Instr) : i.withFieldsOf (encode i) = i := by
  cases i <;> simp [Instr.withFieldsOf, encode]

/-- Settles O1: the word of a command has its opcode, zero in the unused fields, and its own fields in the others. -/
theorem decodeOfEncode : Obligations.DecodeOfEncode := by
  unfold Obligations.DecodeOfEncode
  intro i
  rw [decode_of_opcode i (opcodeField_encode i), unusedZero_encode, withFieldsOf_encode]
  rfl

theorem encode_withFieldsOf (i : Instr) (w : Command) : encode (i.withFieldsOf w) = i.format.word i.opcode w := by
  cases i <;> rfl

theorem ifZero_eq_ok {unused : Bool} {op : BitVec 8} {i j : Instr} :
    ifZero unused op i = .ok j ↔ unused = true ∧ i = j := by
  cases unused <;> simp [ifZero]

theorem ifZero_ne_unknownOpcode (unused : Bool) (op op' : BitVec 8) (i : Instr) :
    ifZero unused op i ≠ .error (.unknownOpcode op') := by
  cases unused <;> simp [ifZero]

/-! ## The opcodes of no command (R108) -/

/-- The opcodes listed in R108. -/
def ReservedOpcode (op : Nat) : Prop :=
  (0x07 ≤ op ∧ op ≤ 0x0F) ∨ (0x16 ≤ op ∧ op ≤ 0x1F) ∨ op = 0x23 ∨ (0x27 ≤ op ∧ op ≤ 0x2F) ∨
    (0x34 ≤ op ∧ op ≤ 0x3F) ∨ (0x48 ≤ op ∧ op ≤ 0x4F) ∨ (0x5B ≤ op ∧ op ≤ 0x5F) ∨ (0x65 ≤ op ∧ op ≤ 0x6F) ∨
    (0x77 ≤ op ∧ op ≤ 0x7F) ∨ (0x84 ≤ op ∧ op ≤ 0x8F) ∨ (0x9A ≤ op ∧ op ≤ 0x9F) ∨ (0xA5 ≤ op ∧ op ≤ 0xAF) ∨ 0xB4 ≤ op

theorem decode_of_reserved {w : Command} (h : ReservedOpcode (opcodeField w).toNat) :
    decode w = .error (.unknownOpcode (opcodeField w)) := by
  unfold decode
  unfold ReservedOpcode at h
  dsimp only
  split
  case h_78 => rfl
  all_goals omega

/-- Every other opcode is that of a command: the one that its word with zero fields decodes to. -/
theorem exists_opcode_of_not_reserved : ∀ op : BitVec 8, ¬ ReservedOpcode op.toNat → ∃ i : Instr, i.opcode = op := by
  have h : ∀ op : BitVec 8, (decode (packCommand op 0 0 0)).toOption.map Instr.opcode = some op ∨
      ReservedOpcode op.toNat := by
    unfold ReservedOpcode
    decide +kernel
  intro op hop
  obtain ⟨i, -, hi⟩ := Option.map_eq_some_iff.1 ((h op).resolve_right hop)
  exact ⟨i, hi⟩

/-- A word is refused for its opcode, or is read as the command of its opcode. -/
theorem decode_cases (w : Command) :
    (ReservedOpcode (opcodeField w).toNat ∧ decode w = .error (.unknownOpcode (opcodeField w))) ∨
    ∃ i : Instr, opcodeField w = i.opcode ∧
      decode w = ifZero (i.format.unusedZero w) (opcodeField w) (i.withFieldsOf w) := by
  by_cases h : ReservedOpcode (opcodeField w).toNat
  · exact .inl ⟨h, decode_of_reserved h⟩
  · obtain ⟨i, hi⟩ := exists_opcode_of_not_reserved _ h
    exact .inr ⟨i, hi.symm, decode_of_opcode i hi.symm⟩

theorem decode_eq_unknownOpcode_iff (w : Command) :
    decode w = .error (.unknownOpcode (opcodeField w)) ↔ ReservedOpcode (opcodeField w).toNat := by
  refine ⟨fun h => ?_, decode_of_reserved⟩
  obtain ⟨hr, -⟩ | ⟨i, -, hi⟩ := decode_cases w
  · exact hr
  · exact absurd (hi.symm.trans h) (ifZero_ne_unknownOpcode _ _ _ _)

/-- R107: of the words with the opcode of a command, those with zero unused fields are commands. -/
theorem exists_decode_iff {i : Instr} {w : Command} (h : opcodeField w = i.opcode) :
    (∃ j, decode w = .ok j) ↔ w &&& i.format.mask = i.opcode.setWidth 64 <<< 56 := by
  rw [← h, and_mask_eq_iff, decode_of_opcode i h]
  simp [ifZero_eq_ok]

/-- R110 (1), (2): a word that is no command raises `ILLOP` and nothing else happens. -/
theorem step_of_not_command {s : Machine.State} {p : Port} {w : Command} {q : List Machine.Event}
    (hq : s.queue = .command p w :: q) (hw : ¬ ∃ i, decode w = .ok i) :
    Machine.step s = .next ((s.accept p w q).raise .illOp) := by
  obtain ⟨-, herr, -, -⟩ := Machine.stepRunsCommand s
  cases hd : decode w with
  | ok i => exact absurd ⟨i, hd⟩ hw
  | error e => exact herr p w q e hq hd

/-- Settles O2: a word that decodes is read with zero unused fields as the command of its opcode and fields. -/
theorem encodeOfDecode : Obligations.EncodeOfDecode := by
  unfold Obligations.EncodeOfDecode
  intro w j hw
  obtain ⟨-, h⟩ | ⟨i, hi, h⟩ := decode_cases w
  · exact absurd (h.symm.trans hw) (by simp)
  · obtain ⟨hz, rfl⟩ := ifZero_eq_ok.1 (h.symm.trans hw)
    rw [encode_withFieldsOf, ← hi, Format.word_eq hz]

/-- Settles O5: the mask tests the unused fields, which are what the decoder tests once the opcode is a command's. -/
theorem unusedFieldsIllegal : Obligations.UnusedFieldsIllegal := by
  unfold Obligations.UnusedFieldsIllegal
  intro i w h
  exact ⟨exists_decode_iff h, fun hm s p q hq => step_of_not_command hq (mt (exists_decode_iff h).1 hm)⟩

/-- Settles O6: the decoder refuses the opcodes of the list, and every other opcode is that of a command. -/
theorem illegalOpcodes : Obligations.IllegalOpcodes := by
  unfold Obligations.IllegalOpcodes
  intro w
  refine ⟨(decode_eq_unknownOpcode_iff w).symm, fun hl s p q hq => step_of_not_command hq ?_⟩
  rintro ⟨i, hi⟩
  exact absurd ((decode_of_reserved hl).symm.trans hi) (by simp)

end Sys2Proof
end

section
/-! Unit addresses and unit instances (spec/30_encoding.md R103, R104): the fields of an address determine it, and each
table of R104 gives the unit whose address has the same fields. -/

namespace Sys2Proof

/-! ## The fields of an address (R103) -/

/-- The unit with the given fields: `unitOf` of the address that has them. -/
def unitAt (side isline line blk isstage idx : Nat) : Option UnitRef :=
  match side with
  | 0 => if isline = 0 ∧ line = 0 ∧ isstage = 0 then globalUnitOf blk idx else none
  | 1 => sideUnitOf .L isline line blk isstage idx
  | 2 => sideUnitOf .R isline line blk isstage idx
  | _ => none

theorem unitOf_eq_unitAt (u : UnitAddr) :
    unitOf u = unitAt (u.extractLsb' 14 2).toNat (u.extractLsb' 13 1).toNat (u.extractLsb' 9 4).toNat
      (u.extractLsb' 5 4).toNat (u.extractLsb' 4 1).toNat (u.extractLsb' 0 4).toNat := rfl

theorem packUnit_fields (u : UnitAddr) :
    packUnit (u.extractLsb' 14 2).toNat (u.extractLsb' 13 1).toNat (u.extractLsb' 9 4).toNat (u.extractLsb' 5 4).toNat
      (u.extractLsb' 4 1).toNat (u.extractLsb' 0 4).toNat = u := by
  apply BitVec.eq_of_toNat_eq
  simp only [packUnit, BitVec.toNat_ofNat, BitVec.extractLsb'_toNat, Nat.shiftRight_eq_div_pow]
  omega

section
variable {line blk isstage idx : Nat}

theorem unitOf_packUnit {side isline : Nat} (hs : side < 4) (hl : isline < 2) (hline : line < 16) (hblk : blk < 16)
    (hst : isstage < 2) (hidx : idx < 16) :
    unitOf (packUnit side isline line blk isstage idx) = unitAt side isline line blk isstage idx := by
  have hu : (packUnit side isline line blk isstage idx).toNat =
      side * 2 ^ 14 + isline * 2 ^ 13 + line * 2 ^ 9 + blk * 2 ^ 5 + isstage * 2 ^ 4 + idx := by
    rw [packUnit, BitVec.toNat_ofNat, Nat.mod_eq_of_lt (by omega)]
  rw [unitOf_eq_unitAt]
  simp only [BitVec.extractLsb'_toNat, Nat.shiftRight_eq_div_pow, hu]
  congr 1 <;> omega

theorem unitAt_sideCode (sd : Side) (isline : Nat) :
    unitAt (sideCode sd) isline line blk isstage idx = sideUnitOf sd isline line blk isstage idx := by
  cases sd <;> rfl

theorem sideCode_lt (sd : Side) : sideCode sd < 4 := by cases sd <;> decide

theorem unitOf_packUnit_global (hblk : blk < 16) (hidx : idx < 16) :
    unitOf (packUnit 0 0 0 blk 0 idx) = globalUnitOf blk idx :=
  unitOf_packUnit (by omega) (by omega) (by omega) hblk (by omega) hidx

theorem unitOf_packUnit_chan (sd : Side) (hblk : blk < 16) (hst : isstage < 2) (hidx : idx < 16) :
    unitOf (packUnit (sideCode sd) 0 0 blk isstage idx) = chanUnitOf sd blk isstage idx :=
  (unitOf_packUnit (sideCode_lt sd) (by omega) (by omega) hblk hst hidx).trans (unitAt_sideCode sd 0)

theorem unitOf_packUnit_line (sd : Side) (j : Fin 12) (hblk : blk < 16) (hst : isstage < 2) (hidx : idx < 16) :
    unitOf (packUnit (sideCode sd) 1 j.val blk isstage idx) = lineUnitOf sd j blk isstage idx := by
  rw [unitOf_packUnit (sideCode_lt sd) (by omega) (by omega) hblk hst hidx, unitAt_sideCode, sideUnitOf, if_pos rfl,
    dif_pos j.isLt]

end

/-! ## The unit at the address of a unit (R104) -/

theorem stageUnitOf_val (r : DiffRef) (k : Fin 12) : stageUnitOf r k.val = some (.map ⟨r, k⟩) := dif_pos k.isLt

theorem unitOf_unitAddr (r : UnitRef) : unitOf (unitAddr r) = some r := by
  cases r with
  | sys | eng | rng | rbuf | fn => exact unitOf_packUnit_global (by omega) (by omega)
  | io b => exact (unitOf_packUnit_global (by omega) (by omega)).trans (dif_pos b.isLt)
  | chan sd | hp1 sd | mtap sd => exact unitOf_packUnit_chan sd (by omega) (by omega) (by omega)
  | dline sd j => exact unitOf_packUnit_line sd j (by omega) (by omega) (by omega)
  | lp1 r =>
    cases r with
    | chan sd => exact unitOf_packUnit_chan sd (by omega) (by omega) (by omega)
    | damp sd j => exact unitOf_packUnit_line sd j (by omega) (by omega) (by omega)
  | mdly r =>
    cases r with
    | pre sd => exact unitOf_packUnit_chan sd (by omega) (by omega) (by omega)
    | line sd j => exact unitOf_packUnit_line sd j (by omega) (by omega) (by omega)
  | diff r =>
    cases r with
    | early sd => exact unitOf_packUnit_chan sd (by omega) (by omega) (by omega)
    | line sd j => exact unitOf_packUnit_line sd j (by omega) (by omega) (by omega)
  | shelf r =>
    obtain ⟨sd, j, kind⟩ := r
    cases kind with
    | low => exact unitOf_packUnit_line (blk := 3) sd j (by omega) (by omega) (by omega)
    | high => exact unitOf_packUnit_line (blk := 4) sd j (by omega) (by omega) (by omega)
  | map r =>
    obtain ⟨d, k⟩ := r
    cases d with
    | early sd => exact (unitOf_packUnit_chan sd (by omega) (by omega) (by omega)).trans (stageUnitOf_val _ k)
    | line sd j => exact (unitOf_packUnit_line sd j (by omega) (by omega) (by omega)).trans (stageUnitOf_val _ k)

/-! ## The address of the unit at an address (R104) -/

section
variable {sd : Side} {blk isstage idx : Nat} {r : UnitRef}

theorem unitAddr_of_globalUnitOf (h : globalUnitOf blk idx = some r) : unitAddr r = packUnit 0 0 0 blk 0 idx := by
  unfold globalUnitOf at h
  split at h
  case h_7 => exact absurd h (by simp)
  all_goals
    split at h
    · obtain rfl := Option.some.inj h
      subst_vars
      rfl
    · exact absurd h (by simp)

theorem unitAddr_of_stageUnitOf {d : DiffRef} (h : stageUnitOf d idx = some r) : unitAddr r = diffAddr d 1 idx := by
  unfold stageUnitOf at h
  split at h
  · obtain rfl := Option.some.inj h
    rfl
  · exact absurd h (by simp)

theorem unitAddr_of_chanUnitOf (hst : isstage < 2) (h : chanUnitOf sd blk isstage idx = some r) :
    unitAddr r = packUnit (sideCode sd) 0 0 blk isstage idx := by
  unfold chanUnitOf at h
  split at h
  · next h1 =>
    split at h
    · next h5 => rw [unitAddr_of_stageUnitOf h, h1, h5]; rfl
    · exact absurd h (by simp)
  · next h1 =>
    obtain rfl : isstage = 0 := by omega
    split at h
    · exact absurd h (by simp)
    · next h0 =>
      obtain rfl := not_not.1 h0
      split at h
      case h_7 => exact absurd h (by simp)
      all_goals obtain rfl := Option.some.inj h; rfl

theorem unitAddr_of_lineUnitOf {j : Fin 12} (hst : isstage < 2) (h : lineUnitOf sd j blk isstage idx = some r) :
    unitAddr r = packUnit (sideCode sd) 1 j.val blk isstage idx := by
  unfold lineUnitOf at h
  split at h
  · next h1 =>
    split at h
    · next h2 => rw [unitAddr_of_stageUnitOf h, h1, h2]; rfl
    · exact absurd h (by simp)
  · next h1 =>
    obtain rfl : isstage = 0 := by omega
    split at h
    · exact absurd h (by simp)
    · next h0 =>
      obtain rfl := not_not.1 h0
      split at h
      case h_7 => exact absurd h (by simp)
      all_goals obtain rfl := Option.some.inj h; rfl

theorem unitAddr_of_sideUnitOf {isline line : Nat} (hl : isline < 2) (hst : isstage < 2)
    (h : sideUnitOf sd isline line blk isstage idx = some r) :
    unitAddr r = packUnit (sideCode sd) isline line blk isstage idx := by
  unfold sideUnitOf at h
  split at h
  · next h1 =>
    split at h
    · rw [unitAddr_of_lineUnitOf hst h, h1]
    · exact absurd h (by simp)
  · next h1 =>
    obtain rfl : isline = 0 := by omega
    split at h
    · exact absurd h (by simp)
    · next h0 =>
      obtain rfl := not_not.1 h0
      exact unitAddr_of_chanUnitOf hst h

theorem unitAddr_of_unitAt {side isline line : Nat} (hl : isline < 2) (hst : isstage < 2)
    (h : unitAt side isline line blk isstage idx = some r) :
    unitAddr r = packUnit side isline line blk isstage idx := by
  unfold unitAt at h
  split at h
  · split at h
    · next h0 =>
      obtain ⟨rfl, rfl, rfl⟩ := h0
      exact unitAddr_of_globalUnitOf h
    · exact absurd h (by simp)
  · exact unitAddr_of_sideUnitOf (sd := .L) hl hst h
  · exact unitAddr_of_sideUnitOf (sd := .R) hl hst h
  · exact absurd h (by simp)

end

/-- Settles O3: each unit's address has the fields its table of R104 reads, and each address is that of its fields. -/
theorem unitAddressBijection : Obligations.UnitAddressBijection := by
  unfold Obligations.UnitAddressBijection
  refine ⟨unitOf_unitAddr, fun u r h => ?_⟩
  have hl : (u.extractLsb' 13 1).toNat < 2 := by omega
  have hst : (u.extractLsb' 4 1).toNat < 2 := by omega
  exact (unitAddr_of_unitAt hl hst ((unitOf_eq_unitAt u).symm.trans h)).trans (packUnit_fields u)

/-- Settles O4: the example words are the words of their commands, the example addresses those of their units. -/
theorem wordsDecode : Obligations.WordsDecode := by
  unfold Obligations.WordsDecode
  exact ⟨decodeOfEncode (.lpStep 0x4040#16 0x3F800000#32), decodeOfEncode (.enSetP 0x0020#16 2#8 0x3E800000#32),
    decodeOfEncode (.rdreg 0x0000#16 0#8), decodeOfEncode (.lpClr 0xB6A0#16),
    decodeOfEncode (.dfSetX 0xB640#16 0x3E800000#32), decodeOfEncode (.dlSetFlags 0x6000#16 0x00000018#32),
    unitOf_unitAddr (.lp1 (.chan .L)), unitOf_unitAddr (.map ⟨.early .R, 3⟩), unitOf_unitAddr (.map ⟨.line .L 4, 0⟩),
    unitOf_unitAddr (.lp1 (.damp .R 11)), unitOf_unitAddr (.io 2), unitOf_unitAddr .eng⟩

end Sys2Proof
end

section
/-! The order of the decode checks (spec/30_encoding.md R110): each shared operation of a command answers the fault of
the first check that fails, and with no failing check a next state with the command's effect. -/

namespace Sys2Proof.Machine

/-! ## The numbers that the debug reads accept (spec/49_engine.md R385, R386) -/

theorem isSome_sysReg (s : State) (n : Nat) : (sysReg s n).isSome = UnitClass.sys.hasReg n := by
  match n with
  | 0 | 1 | 2 | 3 | 4 | 5 => rfl
  | n + 6 => simp [sysReg, UnitClass.hasReg]

theorem isSome_engReg (e : Engine) (n : Nat) : (engReg e n).isSome = UnitClass.eng.hasReg n := by
  unfold engReg
  split
  · simp [UnitClass.hasReg]; omega
  · split <;> simp [UnitClass.hasReg] <;> omega

theorem isSome_rngReg (r : Rng) (n : Nat) : (rngReg r n).isSome = UnitClass.rng.hasReg n := by
  match n with
  | 0 | 1 => rfl
  | n + 2 => simp [rngReg, UnitClass.hasReg]

theorem isSome_rbufReg (b : Rbuf) (n : Nat) : (rbufReg b n).isSome = UnitClass.rbuf.hasReg n := by
  match n with
  | 0 | 1 | 2 => rfl
  | n + 3 => simp [rbufReg, UnitClass.hasReg]

theorem isSome_onePoleReg (f : OnePole) (n : Nat) : (onePoleReg f n).isSome = UnitClass.lp1.hasReg n := by
  match n with
  | 0 | 1 | 2 | 3 => rfl
  | n + 4 => simp [onePoleReg, UnitClass.hasReg]

theorem isSome_shelfReg (k : Config.ShelfKind) (f : Shelf) (n : Nat) :
    (shelfReg k f n).isSome = UnitClass.shelf.hasReg n := by
  match n with
  | 0 | 1 | 2 | 3 | 4 | 5 | 6 | 7 | 8 | 9 | 10 | 11 => rfl
  | n + 12 => simp [shelfReg, UnitClass.hasReg]

theorem isSome_mdlyReg (u : ModDelay) (n : Nat) : (mdlyReg u n).isSome = UnitClass.mdly.hasReg n := by
  match n with
  | 0 | 1 | 2 | 3 | 4 | 5 | 6 | 7 | 8 | 9 | 10 | 11 => rfl
  | n + 12 => simp [mdlyReg, UnitClass.hasReg]

theorem isSome_mapReg (u : Allpass) (n : Nat) : (mapReg u n).isSome = UnitClass.map.hasReg n := by
  unfold mapReg
  split
  · rfl
  · rfl
  · next h1 h4 =>
    rw [isSome_mdlyReg]
    simp [UnitClass.hasReg, bne_iff_ne.2 h1, bne_iff_ne.2 h4]

theorem isSome_diffReg (d : Diffuser) (n : Nat) : (diffReg d n).isSome = UnitClass.diff.hasReg n := by
  match n with
  | 0 | 1 | 2 | 3 | 4 | 5 | 6 | 7 => rfl
  | n + 8 => simp [diffReg, UnitClass.hasReg]

theorem isSome_mtapReg (u : Multitap) (n : Nat) : (mtapReg u n).isSome = UnitClass.mtap.hasReg n := by
  match n with
  | 0 | 1 | 2 | 3 | 4 | 5 => rfl
  | n + 6 => simp [mtapReg, UnitClass.hasReg]

theorem isSome_lineReg (l : DelayLine) (n : Nat) : (lineReg l n).isSome = UnitClass.dline.hasReg n := by
  match n with
  | 0 | 1 | 2 | 3 | 4 => rfl
  | n + 5 => simp [lineReg, UnitClass.hasReg]

theorem isSome_chanReg (c : Channel) (n : Nat) : (chanReg c n).isSome = UnitClass.chan.hasReg n := by
  match n with
  | 0 | 1 | 2 | 3 | 4 | 5 | 6 | 7 => rfl
  | n + 8 => simp [chanReg, UnitClass.hasReg]

/-- The registers of a unit are those of its class. -/
theorem isSome_readReg (s : State) (r : UnitRef) (n : Nat) : (readReg s r n).isSome = r.cls.hasReg n := by
  cases r with
  | sys => exact isSome_sysReg s n
  | eng => exact isSome_engReg _ n
  | rng => exact isSome_rngReg _ n
  | rbuf => exact isSome_rbufReg _ n
  | fn | io _ => rfl
  | chan _ => exact isSome_chanReg _ n
  | hp1 _ | lp1 _ => exact isSome_onePoleReg _ n
  | shelf _ => exact isSome_shelfReg _ _ n
  | map _ => exact isSome_mapReg _ n
  | diff _ => exact isSome_diffReg _ n
  | mdly _ => exact isSome_mdlyReg _ n
  | mtap _ => exact isSome_mtapReg _ n
  | dline _ _ => exact isSome_lineReg _ n

/-- The size of memory `m` of a unit, 0 where there is none, is that of its class. -/
theorem unitMem_size (s : State) (r : UnitRef) (m : Nat) : ((unitMem s r m).elim 0 Prod.snd) = r.cls.memWords m := by
  cases r with
  | mtap sd =>
    match m with
    | 0 | 1 | 2 | 3 => rfl
    | m + 4 => simp [unitMem, mtapMem, UnitRef.cls, UnitClass.memWords]
  | rbuf | map _ | diff _ | mdly _ | dline _ _ | io _ =>
    simp only [unitMem, onlyMem, UnitRef.cls, UnitClass.memWords]
    split <;> rfl
  | _ => rfl

/-- A unit has a word at an index below the size of the memory. -/
theorem isSome_readMem (s : State) (r : UnitRef) (m i : Nat) :
    (readMem s r m i).isSome = decide (i < r.cls.memWords m) := by
  rw [← unitMem_size s, readMem]
  rcases unitMem s r m with _ | ⟨mem, size⟩
  · rfl
  · by_cases h : i < size <;> simp [h]

theorem hasRegs_eq (r : UnitRef) : hasRegs r = r.cls.hasRegs := by cases r <;> rfl

theorem hasMems_eq (r : UnitRef) : hasMems r = r.cls.hasMems := by cases r <;> rfl

/-! ## The checks in their order (R110 (3) to (5)) -/

/-- The port check, before the checks that give `f`: `onC` says whether port `C` accepts the command. -/
def portFault (s : State) (onC : Bool) (f : Option FaultCause) : Option FaultCause :=
  if s.port = .C ∧ onC = false then some .illPort else f

/-- The unit check, before the checks that give `f`. -/
def unitFault (ok : Bool) (f : Option FaultCause) : Option FaultCause := if ok = false then some .illUnit else f

/-- The check of the command's own rule. -/
def ownFault (ok : Bool) (c : FaultCause) : Option FaultCause := if ok = false then some c else none

theorem firstFault_eq (i : Instr) (s : State) :
    i.firstFault s.port = portFault s i.onPortC (unitFault i.unitOk (ownFault i.operandOk i.ownCause)) := rfl

/-- The outcome is the fault, or with no fault a next state with the property `P`. -/
def Answers (s : State) (f : Option FaultCause) (P : State → Prop) (o : Out) : Prop :=
  match f with
  | some c => o = .next (s.raise c)
  | none => ∃ t, o = .next t ∧ P t

section
variable {s t : State} {u : UnitAddr} {f : Option FaultCause} {P : State → Prop} {c : FaultCause}

theorem answers_check {ok : Bool} (h : P t) : Answers s (ownFault ok c) P (check ok c s (.next t)) := by
  cases ok with
  | true => exact ⟨t, rfl, h⟩
  | false => rfl

/-- A command with no check of its own. -/
theorem answers_next (h : P t) : Answers s (ownFault true c) P (.next t) := ⟨t, rfl, h⟩

theorem answers_putRead {v : Option Word} (h : ∀ w, P (s.setRes w)) :
    Answers s (ownFault v.isSome .idxErr) P (putRead s v) := by
  cases v with
  | some w => exact ⟨_, rfl, h w⟩
  | none => rfl

theorem answers_onPortA {k : Out} (hk : Answers s f P k) : Answers s (portFault s false f) P (onPortA s k) := by
  cases hp : s.port with
  | A => simpa [portFault, onPortA_A hp, hp] using hk
  | C =>
    rw [portFault, if_pos ⟨hp, rfl⟩]
    exact onPortA_C hp k

/-- A command that port `C` accepts. -/
theorem answers_anyPort {o : Out} (h : Answers s f P o) : Answers s (portFault s true f) P o := by
  simpa [portFault] using h

theorem answers_onRng {k : Out} (hk : Answers s f P k) :
    Answers s (portFault s false (unitFault (names u .rng) f)) P (onRng u s k) := by
  refine answers_onPortA ?_
  unfold names namesClass
  rcases unitOf u with _ | r
  · rfl
  · cases r with
    | rng => exact hk
    | _ => rfl

theorem answers_onRbuf {k : Out} (hk : Answers s f P k) :
    Answers s (portFault s false (unitFault (names u .rbuf) f)) P (onRbuf u s k) := by
  refine answers_onPortA ?_
  unfold names namesClass
  rcases unitOf u with _ | r
  · rfl
  · cases r with
    | rbuf => exact hk
    | _ => rfl

theorem answers_onLp1 {k : Lp1Ref → Out} (hk : ∀ r, Answers s f P (k r)) :
    Answers s (portFault s false (unitFault (names u .lp1) f)) P (onLp1 u s k) := by
  refine answers_onPortA ?_
  unfold names namesClass
  rcases unitOf u with _ | r
  · rfl
  · cases r with
    | lp1 r => exact hk r
    | _ => rfl

theorem answers_onHp1 {k : Side → Out} (hk : ∀ sd, Answers s f P (k sd)) :
    Answers s (portFault s false (unitFault (names u .hp1) f)) P (onHp1 u s k) := by
  refine answers_onPortA ?_
  unfold names namesClass
  rcases unitOf u with _ | r
  · rfl
  · cases r with
    | hp1 sd => exact hk sd
    | _ => rfl

theorem answers_onShelf {k : ShelfRef → Out} (hk : ∀ r, Answers s f P (k r)) :
    Answers s (portFault s false (unitFault (names u .shelf) f)) P (onShelf u s k) := by
  refine answers_onPortA ?_
  unfold names namesClass
  rcases unitOf u with _ | r
  · rfl
  · cases r with
    | shelf r => exact hk r
    | _ => rfl

theorem answers_onMap {k : MapRef → Out} (hk : ∀ r, Answers s f P (k r)) :
    Answers s (portFault s false (unitFault (names u .map) f)) P (onMap u s k) := by
  refine answers_onPortA ?_
  unfold names namesClass
  rcases unitOf u with _ | r
  · rfl
  · cases r with
    | map r => exact hk r
    | _ => rfl

theorem answers_onDiff {k : DiffRef → Out} (hk : ∀ r, Answers s f P (k r)) :
    Answers s (portFault s false (unitFault (names u .diff) f)) P (onDiff u s k) := by
  refine answers_onPortA ?_
  unfold names namesClass
  rcases unitOf u with _ | r
  · rfl
  · cases r with
    | diff r => exact hk r
    | _ => rfl

theorem answers_onMdly {k : MdlyRef → Out} (hk : ∀ r, Answers s f P (k r)) :
    Answers s (portFault s false (unitFault (names u .mdly) f)) P (onMdly u s k) := by
  refine answers_onPortA ?_
  unfold names namesClass
  rcases unitOf u with _ | r
  · rfl
  · cases r with
    | mdly r => exact hk r
    | _ => rfl

theorem answers_onMtap {k : Side → Out} (hk : ∀ sd, Answers s f P (k sd)) :
    Answers s (portFault s false (unitFault (names u .mtap) f)) P (onMtap u s k) := by
  refine answers_onPortA ?_
  unfold names namesClass
  rcases unitOf u with _ | r
  · rfl
  · cases r with
    | mtap sd => exact hk sd
    | _ => rfl

theorem answers_onLine {k : Side → Fin 12 → Out} (hk : ∀ sd j, Answers s f P (k sd j)) :
    Answers s (portFault s false (unitFault (names u .dline) f)) P (onLine u s k) := by
  refine answers_onPortA ?_
  unfold names namesClass
  rcases unitOf u with _ | r
  · rfl
  · cases r with
    | dline sd j => exact hk sd j
    | _ => rfl

theorem answers_onChan {k : Side → Out} (hk : ∀ sd, Answers s f P (k sd)) :
    Answers s (portFault s false (unitFault (names u .chan) f)) P (onChan u s k) := by
  refine answers_onPortA ?_
  unfold names namesClass
  rcases unitOf u with _ | r
  · rfl
  · cases r with
    | chan sd => exact hk sd
    | _ => rfl

theorem answers_onIo {k : Fin 4 → Out} (hk : ∀ b, Answers s f P (k b)) :
    Answers s (portFault s false (unitFault (names u .io) f)) P (onIo u s k) := by
  refine answers_onPortA ?_
  unfold names namesClass
  rcases unitOf u with _ | r
  · rfl
  · cases r with
    | io b => exact hk b
    | _ => rfl

theorem answers_onFn {k : Out} (hk : Answers s f P k) :
    Answers s (portFault s false (unitFault (names u .fn) f)) P (onFn u s k) := by
  refine answers_onPortA ?_
  unfold names namesClass
  rcases unitOf u with _ | r
  · rfl
  · cases r with
    | fn => exact hk
    | _ => rfl

theorem answers_onEngAny {k : Out} (hk : Answers s f P k) :
    Answers s (unitFault (names u .eng) f) P (onEngAny u s k) := by
  unfold onEngAny names namesClass
  rcases unitOf u with _ | r
  · rfl
  · cases r with
    | eng => exact hk
    | _ => rfl

theorem answers_onRegs {k : UnitRef → Out} (hk : ∀ r, unitOf u = some r → Answers s f P (k r)) :
    Answers s (unitFault (namesClass u UnitClass.hasRegs) f) P (onRegs u s k) := by
  unfold onRegs namesClass
  rcases hu : unitOf u with _ | r
  · rfl
  · cases h : r.cls.hasRegs with
    | true => simpa [hasRegs_eq, h, unitFault] using hk r hu
    | false => simp [hasRegs_eq, h, unitFault, Answers]

theorem answers_onMems {k : UnitRef → Out} (hk : ∀ r, unitOf u = some r → Answers s f P (k r)) :
    Answers s (portFault s false (unitFault (namesClass u UnitClass.hasMems) f)) P (onMems u s k) := by
  refine answers_onPortA ?_
  unfold namesClass
  rcases hu : unitOf u with _ | r
  · rfl
  · cases h : r.cls.hasMems with
    | true => simpa [hasMems_eq, h, unitFault] using hk r hu
    | false => simp [hasMems_eq, h, unitFault, Answers]

theorem answers_onEng {k : Out} (hk : Answers s f P k) :
    Answers s (portFault s false (unitFault (names u .eng) f)) P (onEng u s k) :=
  answers_onPortA (answers_onEngAny hk)

/-- A command of format N: its unit field is unused. -/
theorem answers_noUnit {o : Out} (h : Answers s f P o) : Answers s (unitFault true f) P o := h

theorem answers_readReg {sub : SubField} {r : UnitRef} (hu : unitOf u = some r) (h : ∀ w, P (s.setRes w)) :
    Answers s (ownFault (namesReg u sub.toNat) .idxErr) P (putRead s (readReg s r sub.toNat)) := by
  have hn : namesReg u sub.toNat = (readReg s r sub.toNat).isSome := by
    rw [isSome_readReg, namesReg, hu]
  rw [hn]
  exact answers_putRead h

theorem answers_readMem {m i : Nat} {r : UnitRef} (hu : unitOf u = some r) (h : ∀ w, P (s.setRes w)) :
    Answers s (ownFault (namesWord u m i) .idxErr) P (putRead s (readMem s r m i)) := by
  have hn : namesWord u m i = (readMem s r m i).isSome := by
    rw [isSome_readMem, namesWord, hu]
  rw [hn]
  exact answers_putRead h

end

/-! ## The commands -/

/-- Only `RESET` and `CLRF` touch the fault registers. -/
def KeepsSys (i : Instr) (s t : State) : Prop := i ≠ .reset → i ≠ .clrf → t.sys = s.sys

theorem keepsSys {i : Instr} {s t : State} (h : t.sys = s.sys) : KeepsSys i s t := fun _ _ => h

theorem State.engSync_sys (s : State) : s.engSync.sys = s.sys := by
  unfold State.engSync
  split <;> rfl

theorem State.sys_setRes_of {s t : State} (h : t.sys = s.sys) (v : Word) : (t.setRes v).sys = s.sys :=
  (t.setRes_sys v).trans h

theorem State.procLine_sys (s : State) (sd : Side) (j : Fin 12) (n : Nat) : (s.procLine sd j n).sys = s.sys := by
  simp only [State.procLine, State.putBlock_sys, State.setLine_sys]

theorem State.procChan_sys (s : State) (sd : Side) (n : Nat) : (s.procChan sd n).sys = s.sys := by
  simp only [State.procChan, State.putBlock_sys, State.setChan_sys]

theorem State.procFrames_sys (s : State) (n : Nat) : (s.procFrames n).sys = s.sys := rfl

/-- R110 (3) to (5): a command answers the fault of its first failing check, or has its effect and no fault. -/
theorem exec_answers (i : Instr) (s : State) : Answers s (i.firstFault s.port) (KeepsSys i s) (exec i s) := by
  rw [firstFault_eq]
  exact match i with
  | .nop => answers_anyPort (answers_noUnit (answers_next (keepsSys rfl)))
  | .reset => answers_onPortA (answers_noUnit (answers_next fun hne _ => absurd rfl hne))
  | .rdreg .. => answers_anyPort (answers_onRegs fun _ hu => answers_readReg hu fun w => keepsSys (s.setRes_sys w))
  | .rdmem .. => answers_onMems fun _ hu => answers_readMem hu fun w => keepsSys (s.setRes_sys w)
  | .clrf => answers_onPortA (answers_noUnit (answers_next fun _ hne => absurd rfl hne))
  | .ioWr .. => answers_onIo fun b => answers_check (keepsSys (s.setIo_sys b _))
  | .ioRd .. => answers_onIo fun _ => answers_check (keepsSys (s.setRes_sys _))
  | .rngSeed .. => answers_onRng (answers_next (keepsSys (s.setRng_sys _)))
  | .rngNext _ => answers_onRng (answers_next (keepsSys (State.sys_setRes_of (s.setRng_sys _) _)))
  | .rbSetSeed .. => answers_onRbuf (answers_next (keepsSys (s.setRbuf_sys _)))
  | .rbSetX .. => answers_onRbuf (answers_check (keepsSys (s.setRbuf_sys _)))
  | .rbGen .. => answers_onRbuf (answers_check (keepsSys (s.setRbuf_sys _)))
  | .rbGenX .. => answers_onRbuf (answers_check (keepsSys (s.setRbuf_sys _)))
  | .lpSetFc .. => answers_onLp1 fun r => answers_check (keepsSys (s.setLp1_sys r _))
  | .lpStep .. => answers_onLp1 fun r => answers_next (keepsSys (State.sys_setRes_of (s.setLp1_sys r _) _))
  | .lpClr _ => answers_onLp1 fun r => answers_next (keepsSys (s.setLp1_sys r _))
  | .hpSetFc .. => answers_onHp1 fun sd => answers_check (keepsSys (s.setHp1_sys sd _))
  | .hpStep .. => answers_onHp1 fun sd => answers_next (keepsSys (State.sys_setRes_of (s.setHp1_sys sd _) _))
  | .hpClr _ => answers_onHp1 fun sd => answers_next (keepsSys (s.setHp1_sys sd _))
  | .shSetF .. => answers_onShelf fun r => answers_check (keepsSys (s.setShelf_sys r _))
  | .shSetG .. => answers_onShelf fun r => answers_check (keepsSys (s.setShelf_sys r _))
  | .shStep .. => answers_onShelf fun r => answers_next (keepsSys (State.sys_setRes_of (s.setShelf_sys r _) _))
  | .shClr _ => answers_onShelf fun r => answers_next (keepsSys (s.setShelf_sys r _))
  | .apSetDly .. => answers_onMap fun r => answers_check (keepsSys (s.setMap_sys r _))
  | .apSetFb .. => answers_onMap fun r => answers_check (keepsSys (s.setMap_sys r _))
  | .apSetModA .. => answers_onMap fun r => answers_check (keepsSys (s.setMap_sys r _))
  | .apSetModR .. => answers_onMap fun r => answers_check (keepsSys (s.setMap_sys r _))
  | .apSetInterp .. => answers_onMap fun r => answers_check (keepsSys (s.setMap_sys r _))
  | .apSetModEn .. => answers_onMap fun r => answers_check (keepsSys (s.setMap_sys r _))
  | .apStep .. => answers_onMap fun r => answers_next (keepsSys (State.sys_setRes_of (s.setMap_sys r _) _))
  | .apClr _ => answers_onMap fun r => answers_next (keepsSys (s.setMap_sys r _))
  | .dfSetStages .. => answers_onDiff fun r => answers_check (keepsSys (s.setDiff_sys r _))
  | .dfSetDly .. => answers_onDiff fun r => answers_check (keepsSys (s.setDiff_sys r _))
  | .dfSetFb .. => answers_onDiff fun r => answers_check (keepsSys (s.setDiff_sys r _))
  | .dfSetModA .. => answers_onDiff fun r => answers_check (keepsSys (s.setDiff_sys r _))
  | .dfSetModR .. => answers_onDiff fun r => answers_check (keepsSys (s.setDiff_sys r _))
  | .dfSetSeed .. => answers_onDiff fun r => answers_next (keepsSys (s.setDiff_sys r _))
  | .dfSetX .. => answers_onDiff fun r => answers_check (keepsSys (s.setDiff_sys r _))
  | .dfSetInterp .. => answers_onDiff fun r => answers_check (keepsSys (s.setDiff_sys r _))
  | .dfSetModEn .. => answers_onDiff fun r => answers_check (keepsSys (s.setDiff_sys r _))
  | .dfStep .. => answers_onDiff fun r => answers_next (keepsSys (State.sys_setRes_of (s.setDiff_sys r _) _))
  | .dfClr _ => answers_onDiff fun r => answers_next (keepsSys (s.setDiff_sys r _))
  | .mdSetDly .. => answers_onMdly fun r => answers_check (keepsSys (s.setMdly_sys r _))
  | .mdSetModA .. => answers_onMdly fun r => answers_check (keepsSys (s.setMdly_sys r _))
  | .mdSetModR .. => answers_onMdly fun r => answers_check (keepsSys (s.setMdly_sys r _))
  | .mdStep .. => answers_onMdly fun r => answers_next (keepsSys (State.sys_setRes_of (s.setMdly_sys r _) _))
  | .mdClr _ => answers_onMdly fun r => answers_next (keepsSys (s.setMdly_sys r _))
  | .mtSetTaps .. => answers_onMtap fun sd => answers_check (keepsSys (s.setMtap_sys sd _))
  | .mtSetLen .. => answers_onMtap fun sd => answers_check (keepsSys (s.setMtap_sys sd _))
  | .mtSetDecay .. => answers_onMtap fun sd => answers_check (keepsSys (s.setMtap_sys sd _))
  | .mtSetSeed .. => answers_onMtap fun sd => answers_next (keepsSys (s.setMtap_sys sd _))
  | .mtSetX .. => answers_onMtap fun sd => answers_check (keepsSys (s.setMtap_sys sd _))
  | .mtStep .. => answers_onMtap fun sd => answers_next (keepsSys (State.sys_setRes_of (s.setMtap_sys sd _) _))
  | .mtClr _ => answers_onMtap fun sd => answers_next (keepsSys (s.setMtap_sys sd _))
  | .dlSetFb .. => answers_onLine fun sd j => answers_check (keepsSys (s.setLine_sys sd j _))
  | .dlSetFlags .. => answers_onLine fun sd j => answers_check (keepsSys (s.setLine_sys sd j _))
  | .dlProc .. => answers_onLine fun sd j => answers_check (keepsSys (s.procLine_sys sd j _))
  | .dlClr _ => answers_onLine fun sd j => answers_next (keepsSys (s.setLine_sys sd j _))
  | .chSetInMix .. => answers_onChan fun sd => answers_check (keepsSys (s.setChan_sys sd _))
  | .chSetFlags .. => answers_onChan fun sd => answers_check (keepsSys (s.setChan_sys sd _))
  | .chSetLines .. => answers_onChan fun sd => answers_check (keepsSys (s.setChan_sys sd _))
  | .chSetDecay .. => answers_onChan fun sd => answers_check (keepsSys (s.setChan_sys sd _))
  | .chSetDry .. => answers_onChan fun sd => answers_check (keepsSys (s.setChan_sys sd _))
  | .chSetEarly .. => answers_onChan fun sd => answers_check (keepsSys (s.setChan_sys sd _))
  | .chSetLineOut .. => answers_onChan fun sd => answers_check (keepsSys (s.setChan_sys sd _))
  | .chSetX .. => answers_onChan fun sd => answers_check (keepsSys (s.setChan_sys sd _))
  | .chProc .. => answers_onChan fun sd => answers_check (keepsSys (s.procChan_sys sd _))
  | .chClr _ => answers_onChan fun sd => answers_next (keepsSys (s.setChan_sys sd _))
  | .enSetP .. => answers_anyPort (answers_onEngAny (answers_check (keepsSys (s.setEng_sys _))))
  | .enGetP .. => answers_anyPort (answers_onEngAny (answers_check (keepsSys (s.setRes_sys _))))
  | .enProc .. => answers_onEng (answers_check (keepsSys ((State.procFrames_sys _ _).trans s.engSync_sys)))
  | .enClr _ => answers_onEng (answers_next (keepsSys s.clearChannels_sys))
  | .enSync _ => answers_onEng (answers_next (keepsSys s.engSync_sys))
  | .fnR2d .. => answers_onFn (answers_next (keepsSys (s.setRes_sys _)))
  | .fnR3d .. => answers_onFn (answers_next (keepsSys (s.setRes_sys _)))
  | .fnR4o .. => answers_onFn (answers_next (keepsSys (s.setRes_sys _)))
  | .fnDb2Lin .. => answers_onFn (answers_next (keepsSys (s.setRes_sys _)))

/-- Settles O9: the decoder makes checks (1) and (2), the command the others in their order. -/
theorem decodeOrder : Obligations.DecodeOrder := by
  unfold Obligations.DecodeOrder
  intro s p w q hq
  obtain ⟨hrun, herr, -, -⟩ := stepRunsCommand s
  rcases hd : decode w with e | i
  · have hs : step s = .next ((s.accept p w q).raise .illOp) := herr p w q e hq hd
    have hf : wordFault p w = some .illOp := by rw [wordFault, hd]
    refine ⟨fun c hc => ?_, fun hn => absurd (hf.symm.trans hn) (by simp)⟩
    obtain rfl := Option.some.inj (hf.symm.trans hc)
    exact hs
  · have hs : step s = exec i (s.accept p w q) := hrun p w q i hq hd
    have hf : wordFault p w = i.firstFault p := by rw [wordFault, hd]
    have ha : Answers (s.accept p w q) (i.firstFault p) (KeepsSys i (s.accept p w q)) (exec i (s.accept p w q)) :=
      exec_answers i (s.accept p w q)
    rw [hf, hs]
    refine ⟨fun c hc => ?_, fun hn => ?_⟩
    · rw [hc] at ha
      exact ha
    · rw [hn] at ha
      obtain ⟨t, ht, hk⟩ := ha
      exact ⟨i, t, rfl, rfl, ht, hk⟩

end Sys2Proof.Machine
end

section
/-! The generator and the random buffer (spec/40_rng.md): the list of a seed, what the two commands of the generator make
of it (R130 to R137), the identities of the crossed list at its ends (R135), and the filling of the buffer (R138 to R141). -/

namespace Sys2Proof.Machine

/-! ## The sequence of a seed (R131, R132, R134) -/

theorem lcgNext_toNat (cfg : Config.Params) (x : BitVec 64) :
    (lcgNext cfg x).toNat = (cfg.lcgA.toNat * x.toNat + cfg.lcgC.toNat) % 2 ^ 32 := by
  rw [lcgNext, Config.lcgM, BitVec.toNat_ofNat]
  omega

/-- R132: only the low 32 bits of the register matter. -/
theorem lcgNext_congr (cfg : Config.Params) {x x' : BitVec 64} (h : x.toNat % 2 ^ 32 = x'.toNat % 2 ^ 32) :
    lcgNext cfg x = lcgNext cfg x' := by
  apply BitVec.eq_of_toNat_eq
  rw [lcgNext_toNat, lcgNext_toNat]
  exact Nat.ModEq.add_right _ (Nat.ModEq.mul_left _ h)

/-- The low half of the register after an update (R131). -/
theorem setWidth_lcgNext (cfg : Config.Params) (x : BitVec 64) :
    (lcgNext cfg x).setWidth 32 = BitVec.ofNat 32 ((cfg.lcgA.toNat * x.toNat + cfg.lcgC.toNat) % 2 ^ 32) := by
  apply BitVec.eq_of_toNat_eq
  rw [BitVec.toNat_setWidth, lcgNext_toNat, BitVec.toNat_ofNat]

theorem length_generate (cfg : Config.Params) (seed : Word) (n : Nat) : (generate cfg seed n).length = n :=
  length_generateFrom cfg _ n

/-- A longer sequence starts with the shorter one. -/
theorem take_generateFrom (cfg : Config.Params) (x : BitVec 64) {n m : Nat} (h : n ≤ m) :
    (generateFrom cfg x m).take n = generateFrom cfg x n := by
  induction m generalizing x n with
  | zero =>
    obtain rfl := Nat.le_zero.1 h
    rfl
  | succ m ih =>
    cases n with
    | zero => rfl
    | succ n => rw [generateFrom, List.take_succ_cons, ih _ (Nat.le_of_succ_le_succ h), generateFrom]

/-! ## The generator (R136, R137) -/

/-- A register with a zero upper half is its lower half. -/
theorem Rng.x_toNat_of_xHi {r : Rng} (h : r.xHi = 0#32) : r.x.toNat = r.xLo.toNat := by
  rw [Rng.x, h]
  exact (BitVec.toNat_append _ _).trans (by simp)

/-- The register after `RNG.SEED` is the one the list of the seed starts from. -/
theorem Rng.x_setSeed (r : Rng) (seed : Word) : (r.setSeed seed).x = seed.setWidth 64 := by
  apply BitVec.eq_of_toNat_eq
  rw [Rng.x_toNat_of_xHi rfl, BitVec.toNat_setWidth_of_le (by decide), Rng.setSeed]

/-- The upper half that `RNG.NEXT` clears is zero in the updated register anyway. -/
theorem Rng.x_next (cfg : Config.Params) (r : Rng) : (r.next cfg).2.x = lcgNext cfg r.x := by
  apply BitVec.eq_of_toNat_eq
  have hlt : (lcgNext cfg r.x).toNat < 2 ^ 32 := lcgNext_toNat cfg r.x ▸ Nat.mod_lt _ (Nat.two_pow_pos _)
  rw [Rng.x_toNat_of_xHi rfl, Rng.next, BitVec.toNat_setWidth, Nat.mod_eq_of_lt hlt]

section
variable {s : State} {u : UnitAddr}

theorem exec_rngSeed (hp : s.port = .A) (hu : unitOf u = some .rng) (seed : Word) :
    exec (.rngSeed u seed) s = .next (s.setRng (s.rng.setSeed seed)) := onRng_eq hp hu _

theorem exec_rngNext (hp : s.port = .A) (hu : unitOf u = some .rng) :
    exec (.rngNext u) s = .next ((s.setRng (s.rng.next Config.chip).2).setRes (s.rng.next Config.chip).1) :=
  onRng_eq hp hu _

theorem runCommands_cons {i : Instr} {t : State} (h : exec i s = .next t) (is : List Instr) :
    runCommands (i :: is) s = runCommands is t := by
  rw [runCommands, h]

/-- R137: the last of `n + 1` commands `RNG.NEXT` returns element `n` of the sequence from the present register. -/
theorem runCommands_rngNext (hp : s.port = .A) (hu : unitOf u = some .rng) (n : Nat) :
    ∃ t, runCommands (List.replicate (n + 1) (.rngNext u)) s = .next t ∧
      (generateFrom Config.chip s.rng.x (n + 1))[n]? = some t.resA := by
  induction n generalizing s with
  | zero =>
    have hp' : (s.setRng (s.rng.next Config.chip).2).port = .A := hp
    exact ⟨_, runCommands_cons (exec_rngNext hp hu) [], congrArg some (resA_setRes hp' _).symm⟩
  | succ n ih =>
    rw [List.replicate_succ, runCommands_cons (exec_rngNext hp hu), generateFrom, List.getElem?_cons_succ,
      ← Rng.x_next]
    simpa using ih (s := (s.setRng (s.rng.next Config.chip).2).setRes (s.rng.next Config.chip).1) (by simpa using hp)

end

/-- Settles O21: both the lists and the runs of commands, by induction on the length. -/
theorem generatorSequence : Obligations.GeneratorSequence := by
  unfold Obligations.GeneratorSequence
  refine ⟨fun cfg x x' h => lcgNext_congr cfg h, fun cfg seed n m h => ?_, fun s u seed n hp hu hn => ?_⟩
  · exact ⟨take_generateFrom cfg _ h, length_generate cfg seed n⟩
  · obtain ⟨k, rfl⟩ := Nat.exists_eq_add_of_le' hn
    obtain ⟨t, hrun, hres⟩ := runCommands_rngNext (s := s.setRng (s.rng.setSeed seed)) hp hu k
    rw [State.setRng_rng, Rng.x_setSeed] at hres
    exact ⟨t, (runCommands_cons (exec_rngSeed hp hu seed) _).trans hrun, hres⟩

/-- Settles O19: the register as R131 and R136 write it, and the frame of the two updates one after the other. -/
theorem generatorCommands : Obligations.GeneratorCommands := by
  unfold Obligations.GeneratorCommands
  intro s u seed hp hu
  refine ⟨⟨_, exec_rngSeed hp hu seed, rfl, rfl, untouched_setRng s _⟩, _, exec_rngNext hp hu, ?_⟩
  have hx : (lcgNext Config.chip s.rng.x).setWidth 32 = _ := setWidth_lcgNext Config.chip s.rng.x
  have hp' : (s.setRng (s.rng.next Config.chip).2).port = .A := hp
  refine ⟨?_, ?_, ?_, ((untouched_setRng s _).trans (untouched_setRes _ _)).mono (fun r n => ?_) (fun r m i h => ?_)⟩
  · rw [State.setRes_rng]
    rfl
  · rw [State.setRes_rng]
    exact hx
  · rw [resA_setRes hp']
    exact congrArg u32ToUnit hx
  · exact Or.imp_right (resReg_A hp').1
  · exact h.elim id id

/-! ## The ends of the crossed list (R135) -/

/-- A random value has the sign bit 0. -/
theorem signBit_u32ToUnit (v : Word) : signBit (u32ToUnit v) = false := signBit_withSign false (roundMag_lt _ _)

theorem signBit_of_mem_generateFrom {cfg : Config.Params} {x : BitVec 64} {n : Nat} {v : F}
    (hv : v ∈ generateFrom cfg x n) : signBit v = false := by
  induction n generalizing x with
  | zero => simp [generateFrom] at hv
  | succ n ih =>
    rcases List.mem_cons.1 hv with rfl | hv
    · exact signBit_u32ToUnit _
    · exact ih hv

/-- A pattern is its sign bit and its magnitude pattern. -/
theorem withSign_signBit_magBits (x : F) : withSign (signBit x) (magBits x) = x := by
  apply BitVec.eq_of_toNat_eq
  unfold withSign signBit magBits
  rw [BitVec.toNat_ofNat, BitVec.msb_eq_decide]
  by_cases h : 2 ^ (32 - 1) ≤ x.toNat
  · rw [decide_eq_true h, if_pos rfl]
    omega
  · rw [decide_eq_false h, if_neg Bool.false_ne_true]
    omega

/-- Rounding the magnitude of a finite value gives its pattern. -/
theorem roundMag_magUnits {x : F} (hx : isFinite x = true) {den : Nat} (hd : 0 < den) :
    roundMag (magUnits x * den) den = magBits x := by
  rw [magUnits_eq, roundMag_exact _ hd, min_eq_left ((isFinite_iff x).1 hx).le]

theorem fsub_fone_fzero : fsub fone fzero = fone := by decide
theorem fsub_fone_fone : fsub fone fone = fzero := by decide

section
variable {a : F} (hfin : isFinite a = true)
include hfin

theorem fmul_fone : fmul a fone = a := by
  rw [fmul_of_isFinite hfin (by decide), show magUnits fone = 2 ^ 149 by decide, roundMag_magUnits hfin (Nat.two_pow_pos _),
    show signBit fone = false from rfl, Bool.bne_false, withSign_signBit_magBits]

theorem fmul_fzero (hpos : signBit a = false) : fmul a fzero = fzero := by
  rw [fmul_of_isFinite hfin (by decide), hpos, show magUnits fzero = 0 by decide, Nat.mul_zero]
  decide

/-- Rounding the units of a value that is not negative gives the value. -/
theorem roundUnits_toUnits (hpos : signBit a = false) : roundUnits false (toUnits a) = a := by
  have hu : toUnits a = magUnits a := by rw [toUnits, hpos]; rfl
  have hround : roundMag (magUnits a) 1 = magBits a := by simpa using roundMag_magUnits hfin one_pos
  have hpat : withSign false (magBits a) = a := hpos ▸ withSign_signBit_magBits a
  rw [roundUnits, hu]
  split
  · next h0 =>
    have hzero : magBits a = 0 := by rw [← hround, Int.natCast_eq_zero.1 h0]; decide
    rw [← hzero, hpat]
  · rw [decide_eq_false (by omega), Int.natAbs_natCast, hround, hpat]

theorem fadd_fzero (hpos : signBit a = false) : fadd a fzero = a := by
  rw [fadd_of_isFinite hfin (by decide), toUnits_fzero, add_zero, hpos, Bool.false_and, roundUnits_toUnits hfin hpos]

theorem fzero_fadd (hpos : signBit a = false) : fadd fzero a = a := by
  rw [fadd_of_isFinite (by decide) hfin, toUnits_fzero, zero_add, hpos, Bool.and_false, roundUnits_toUnits hfin hpos]

end

section
variable {a b : F} (ha : isFinite a = true) (hb : isFinite b = true) (ha0 : signBit a = false) (hb0 : signBit b = false)
include ha hb ha0 hb0

theorem crossBlend_fzero : crossBlend fzero a b = a := by
  rw [crossBlend, fsub_fone_fzero, fmul_fone ha, fmul_fzero hb hb0, fadd_fzero ha ha0]

theorem crossBlend_fone : crossBlend fone a b = b := by
  rw [crossBlend, fsub_fone_fone, fmul_fone hb, fmul_fzero ha ha0, fzero_fadd hb hb0]

end

theorem isFinite_getElem_generate {cfg : Config.Params} {seed : Word} {n i : Nat}
    (h : i < (generate cfg seed n).length) : isFinite (generate cfg seed n)[i] = true :=
  (inUnit_iff.1 (inUnit_of_mem_generateFrom (List.getElem_mem h))).1

theorem signBit_getElem_generate {cfg : Config.Params} {seed : Word} {n i : Nat}
    (h : i < (generate cfg seed n).length) : signBit (generate cfg seed n)[i] = false :=
  signBit_of_mem_generateFrom (List.getElem_mem h)

/-- Settles O22: a random value is finite with the sign bit 0, so at the ends one product is the value itself and the other
is `+0`. -/
theorem crossSeedEnds : Obligations.CrossSeedEnds := by
  unfold Obligations.CrossSeedEnds
  intro cfg seed c n
  refine ⟨fun i hi => ?_, ?_, ?_⟩
  · have ha : i < (generate cfg seed n).length := (length_generate cfg seed n).symm ▸ hi
    have hb : i < (generate cfg (~~~seed) n).length := (length_generate cfg (~~~seed) n).symm ▸ hi
    refine ⟨_, _, List.getElem?_eq_getElem ha, List.getElem?_eq_getElem hb, ?_⟩
    rw [generateCross, List.getElem?_zipWith, List.getElem?_eq_getElem ha, List.getElem?_eq_getElem hb]
    rfl
  · refine List.ext_getElem (by rw [length_generateCross, length_generate]) fun i _ _ => ?_
    simp only [generateCross, List.getElem_zipWith]
    exact crossBlend_fzero (isFinite_getElem_generate _) (isFinite_getElem_generate _) (signBit_getElem_generate _)
      (signBit_getElem_generate _)
  · refine List.ext_getElem (by rw [length_generateCross, length_generate]) fun i _ _ => ?_
    simp only [generateCross, List.getElem_zipWith]
    exact crossBlend_fone (isFinite_getElem_generate _) (isFinite_getElem_generate _) (signBit_getElem_generate _)
      (signBit_getElem_generate _)

/-! ## The random buffer (R138 to R141) -/

section
variable {s : State} {u : UnitAddr}

theorem exec_rbSetSeed (hp : s.port = .A) (hu : unitOf u = some .rbuf) (v : Word) :
    exec (.rbSetSeed u v) s = .next (s.setRbuf (s.rbuf.setSeed v)) := onRbuf_eq hp hu _

theorem exec_rbSetX (hp : s.port = .A) (hu : unitOf u = some .rbuf) (v : Word) :
    exec (.rbSetX u v) s = check (inUnit v) .cfgErr s (.next (s.setRbuf (s.rbuf.setX v))) := onRbuf_eq hp hu _

theorem exec_rbGen (hp : s.port = .A) (hu : unitOf u = some .rbuf) (v : Word) :
    exec (.rbGen u v) s = check (countOk v.toNat) .cfgErr s (.next (s.setRbuf (s.rbuf.gen Config.chip v.toNat))) :=
  onRbuf_eq hp hu _

theorem exec_rbGenX (hp : s.port = .A) (hu : unitOf u = some .rbuf) (v : Word) :
    exec (.rbGenX u v) s = check (countOk v.toNat) .cfgErr s (.next (s.setRbuf (s.rbuf.genX Config.chip v.toNat))) :=
  onRbuf_eq hp hu _

end

theorem rbufReg_setSeed (b : Rbuf) (v : Word) {n : Nat} (hn : n ≠ 0) : rbufReg (b.setSeed v) n = rbufReg b n := by
  rcases n with _ | _ | _ | n
  · exact absurd rfl hn
  all_goals rfl

theorem rbufReg_setX (b : Rbuf) (c : F) {n : Nat} (hn : n ≠ 1) : rbufReg (b.setX c) n = rbufReg b n := by
  rcases n with _ | _ | _ | n
  · rfl
  · exact absurd rfl hn
  all_goals rfl

/-- A setting of one register of the buffer touches that register alone. -/
theorem untouched_setRbuf_reg (s : State) (g : Rbuf) {k : Nat} (hval : g.val = s.rbuf.val)
    (hreg : ∀ n, n ≠ k → rbufReg g n = rbufReg s.rbuf n) :
    Untouched s (s.setRbuf g) (fun r n => r = .rbuf ∧ n = k) noMem :=
  (untouched_setRbuf s g (P := (· = k)) (Q := fun _ => False) hreg fun _ _ => by rw [hval]).mono (fun _ _ h => h)
    fun _ _ _ h => h.2.2

/-- The buffer with a list written from word 0 up and its length as the count. -/
def Rbuf.fill (b : Rbuf) (vs : List F) : Rbuf := { b with val := memWriteList b.val 0 vs, count := vs.length }

theorem Rbuf.gen_eq_fill (cfg : Config.Params) (b : Rbuf) (n : Nat) : b.gen cfg n = b.fill (generate cfg b.seed n) := by
  rw [Rbuf.gen, Rbuf.fill, length_generate]

theorem Rbuf.genX_eq_fill (cfg : Config.Params) (b : Rbuf) (n : Nat) :
    b.genX cfg n = b.fill (generateCross cfg b.seed b.xseed n) := by
  rw [Rbuf.genX, Rbuf.fill, length_generateCross]

theorem rbufReg_fill (b : Rbuf) (vs : List F) {n : Nat} (hn : n ≠ 2) : rbufReg (b.fill vs) n = rbufReg b n := by
  rcases n with _ | _ | _ | n
  · rfl
  · rfl
  · exact absurd rfl hn
  · rfl

/-- R140, R141: filling the buffer touches its count and the words below the count. -/
theorem untouched_fill (s : State) (vs : List F) :
    Untouched s (s.setRbuf (s.rbuf.fill vs)) (fun r n => r = .rbuf ∧ n = 2)
      (fun r m i => r = .rbuf ∧ m = 0 ∧ i < vs.length) :=
  untouched_setRbuf s _ (P := (· = 2)) (Q := (· < vs.length)) (fun _ hn => rbufReg_fill _ vs hn)
    fun _ hi => memRead_memWriteList_outside _ 0 vs (.inr (by omega))

/-- A command that fills the buffer: the count, the words below it, the frame. -/
theorem fill_effect {s : State} {o : Out} {vs : List F} {n : Nat} (hlen : vs.length = n)
    (hwf : Memory.wf s.rbuf.val = true) (ho : o = .next (s.setRbuf (s.rbuf.fill vs))) :
    ∃ t, o = .next t ∧ t.rbuf.count = n ∧ memReadList t.rbuf.val 0 n = vs ∧
      Untouched s t (fun r k => r = .rbuf ∧ k = 2) (fun r m i => r = .rbuf ∧ m = 0 ∧ i < n) := by
  subst hlen
  exact ⟨_, ho, rfl, memReadList_memWriteList hwf 0 vs, untouched_fill s vs⟩

/-- Settles O20: the checks pass or fail as R139 to R141 say, and both ways of filling the buffer are one operation. -/
theorem randomBufferCommands : Obligations.RandomBufferCommands := by
  unfold Obligations.RandomBufferCommands
  intro s u v hp hu
  rw [exec_rbSetSeed hp hu, exec_rbSetX hp hu, exec_rbGen hp hu, exec_rbGenX hp hu]
  have hunit : inUnit v = true ↔ fle fzero v = true ∧ fle v fone = true := Bool.and_eq_true_iff
  refine ⟨⟨_, rfl, rfl, untouched_setRbuf_reg s _ rfl fun _ => rbufReg_setSeed s.rbuf v⟩, fun hv => ?_, fun hv => ?_,
    fun hv hwf => ?_, fun hv => ?_⟩
  · rw [hunit.2 hv, check_true]
    exact ⟨_, rfl, rfl, untouched_setRbuf_reg s _ rfl fun _ => rbufReg_setX s.rbuf v⟩
  · rw [Bool.eq_false_iff.2 (mt hunit.1 hv), check_false]
  · have hcount : countOk v.toNat = true := decide_eq_true hv
    rw [hcount, check_true, check_true, Rbuf.gen_eq_fill, Rbuf.genX_eq_fill]
    exact ⟨fill_effect (length_generate _ _ _) hwf rfl, fill_effect (length_generateCross _ _ _ _) hwf rfl⟩
  · have hcount : countOk v.toNat = false := decide_eq_false (not_le.2 hv)
    rw [hcount, check_false, check_false]
    exact ⟨rfl, rfl⟩

end Sys2Proof.Machine
end

section
/-! The one-pole filters (spec/41_onepole.md): what each of the six commands does and leaves untouched (R152 to R159), and
the silence law of both variants (R160). -/

namespace Sys2Proof.Machine

/-! ## The two steps (R158, R159) -/

/-- Both epsilons are positive (R158, R159; log entry 5), whatever the parameters are. -/
theorem flt_fzero_positiveFinite (e : F) : flt fzero (positiveFinite e) = true := by
  unfold positiveFinite
  split
  · next h => exact (Bool.and_eq_true_iff.1 h).1
  · decide

/-- The high-pass step with its silence branch taken in the output and in the state apart. -/
theorem hp1Step_eq (cfg : Config.Params) (u : OnePole) (v : F) :
    hp1Step cfg u v = (if feq v fzero && flt u.z (opfEpsHp cfg) then fzero else fsub v (u.recur v),
      { u with z := if feq v fzero && flt u.z (opfEpsHp cfg) then u.z else u.recur v }) := by
  unfold hp1Step
  split <;> rfl

section
variable {cfg : Config.Params} {u : OnePole} {v : F} (hv : feq v fzero = true)
include hv

theorem lp1Step_of_silent (hz : flt u.z (opfEpsLp cfg) = true) : lp1Step cfg u v = (fzero, u.clear) := by
  rw [lp1Step, hv, hz]
  rfl

theorem hp1Step_of_silent (hz : flt u.z (opfEpsHp cfg) = true) : hp1Step cfg u v = (fzero, u) := by
  rw [hp1Step, hv, hz]
  rfl

end

/-! ## The commands on a unit that exists (R152 to R157) -/

section
variable {s : State} {u : UnitAddr} {r : Lp1Ref} {sd : Side}

theorem exec_lpSetFc (hp : s.port = .A) (hu : unitOf u = some (.lp1 r)) (f : Word) :
    exec (.lpSetFc u f) s = check (isFinite f) .cfgErr s (.next (s.setLp1 r ((s.lp1 r).setFc Config.chip f))) :=
  onLp1_eq hp hu _

theorem exec_lpStep (hp : s.port = .A) (hu : unitOf u = some (.lp1 r)) (v : Word) :
    exec (.lpStep u v) s =
      .next ((s.setLp1 r (lp1Step Config.chip (s.lp1 r) v).2).setRes (lp1Step Config.chip (s.lp1 r) v).1) :=
  onLp1_eq hp hu _

theorem exec_lpClr (hp : s.port = .A) (hu : unitOf u = some (.lp1 r)) :
    exec (.lpClr u) s = .next (s.setLp1 r (s.lp1 r).clear) := onLp1_eq hp hu _

theorem exec_hpSetFc (hp : s.port = .A) (hu : unitOf u = some (.hp1 sd)) (f : Word) :
    exec (.hpSetFc u f) s = check (isFinite f) .cfgErr s (.next (s.setHp1 sd ((s.hp1 sd).setFc Config.chip f))) :=
  onHp1_eq hp hu _

theorem exec_hpStep (hp : s.port = .A) (hu : unitOf u = some (.hp1 sd)) (v : Word) :
    exec (.hpStep u v) s =
      .next ((s.setHp1 sd (hp1Step Config.chip (s.hp1 sd) v).2).setRes (hp1Step Config.chip (s.hp1 sd) v).1) :=
  onHp1_eq hp hu _

theorem exec_hpClr (hp : s.port = .A) (hu : unitOf u = some (.hp1 sd)) :
    exec (.hpClr u) s = .next (s.setHp1 sd (s.hp1 sd).clear) := onHp1_eq hp hu _

end

/-! ## The silence law (R160) -/

/-- The command `g` on the filter `get` reads: a zero sample below the epsilon `e` returns `+0` and leaves the filter as
`quiet` makes it. -/
def StepsSilently (get : State → OnePole) (quiet : OnePole → OnePole) (e : F) (g : Word → Instr) : Prop :=
  ∀ (s : State) (v : Word), s.port = .A → feq v fzero = true → flt (get s).z e = true →
    ∃ t, exec (g v) s = .next t ∧ t.port = .A ∧ t.resA = fzero ∧ get t = quiet (get s)

theorem lpStep_stepsSilently {u : UnitAddr} {r : Lp1Ref} (hu : unitOf u = some (.lp1 r)) :
    StepsSilently (·.lp1 r) OnePole.clear (opfEpsLp Config.chip) (.lpStep u) := by
  intro s v hp hv hz
  refine ⟨_, exec_lpStep hp hu v, by simpa using hp, ?_, ?_⟩ <;> rw [lp1Step_of_silent hv hz]
  · exact resA_setRes (by simpa using hp) _
  · simp

theorem hpStep_stepsSilently {u : UnitAddr} {sd : Side} (hu : unitOf u = some (.hp1 sd)) :
    StepsSilently (·.hp1 sd) id (opfEpsHp Config.chip) (.hpStep u) := by
  intro s v hp hv hz
  refine ⟨_, exec_hpStep hp hu v, by simpa using hp, ?_, ?_⟩ <;> rw [hp1Step_of_silent hv hz]
  · exact resA_setRes (by simpa using hp) _
  · simp

/-- One silent step leaves the filter below the epsilon, so the next is silent too: induction over the samples before the
last. -/
theorem StepsSilently.run {get : State → OnePole} {quiet : OnePole → OnePole} {e : F} {g : Word → Instr}
    (h : StepsSilently get quiet e g) (hbelow : ∀ f : OnePole, flt f.z e = true → flt (quiet f).z e = true)
    (hidem : ∀ f, quiet (quiet f) = quiet f) {s : State} {vs : List Word} {v : Word} (hp : s.port = .A)
    (hv : feq v fzero = true) (hvs : ∀ x, x ∈ vs → feq x fzero = true) (hz : flt (get s).z e = true) :
    ∃ t, runCommands ((vs ++ [v]).map g) s = .next t ∧ t.resA = fzero ∧ get t = quiet (get s) := by
  induction vs generalizing s with
  | nil =>
    obtain ⟨t, hrun, -, hres, hget⟩ := h s v hp hv hz
    exact ⟨t, runCommands_cons hrun [], hres, hget⟩
  | cons x xs ih =>
    obtain ⟨hx, hxs⟩ := List.forall_mem_cons.1 hvs
    obtain ⟨t, hrun, hpt, -, hget⟩ := h s x hp hx hz
    have hzt : flt (get t).z e = true := hget ▸ hbelow _ hz
    rw [List.cons_append, List.map_cons, runCommands_cons hrun, ← hidem, ← hget]
    exact ih hpt hxs hzt

/-- Settles O25: the low-pass is cleared by the first silent step, and `+0` is below the epsilon; the high-pass does not
move. -/
theorem silenceLaw : Obligations.SilenceLaw := by
  unfold Obligations.SilenceLaw
  refine ⟨flt_fzero_positiveFinite _, flt_fzero_positiveFinite _, fun s u v vs hp hv hvs => ⟨fun r hu hz => ?_,
    fun sd hu hz => ?_⟩⟩
  · exact (lpStep_stepsSilently hu).run (fun _ _ => flt_fzero_positiveFinite _) (fun _ => rfl) hp hv hvs hz
  · exact (hpStep_stepsSilently hu).run (fun _ => id) (fun _ => rfl) hp hv hvs hz

/-! ## The frame of the commands -/

/-- A new cutoff shows in the registers 0 to 2 alone. -/
theorem onePoleReg_setFc (cfg : Config.Params) (u : OnePole) (f : F) {n : Nat} (hn : ¬ n ≤ 2) :
    onePoleReg (u.setFc cfg f) n = onePoleReg u n := by
  match n with
  | 0 | 1 | 2 => exact absurd (by decide) hn
  | 3 | _ + 4 => rfl

/-- A new state value shows in register 3 alone. -/
theorem onePoleReg_withZ (u : OnePole) (z : F) {n : Nat} (hn : n ≠ 3) :
    onePoleReg { u with z := z } n = onePoleReg u n := by
  match n with
  | 3 => exact absurd rfl hn
  | 0 | 1 | 2 | _ + 4 => rfl

/-- A result written on port `A` adds `RES[A]` to what was touched before. -/
theorem Untouched.setRes_A {s t : State} {R : UnitRef → Nat → Prop} (h : Untouched s t R noMem) (hp : t.port = .A)
    (v : Word) : Untouched s (t.setRes v) (fun q n => R q n ∨ (q = .sys ∧ n = 4)) noMem :=
  (h.trans (untouched_setRes t v)).mono (fun _ _ => Or.imp_right (resReg_A hp).1) fun _ _ _ => or_self_iff.1

section
variable (s : State) (r : Lp1Ref) (sd : Side)

theorem untouched_setLp1_setFc (f : F) :
    Untouched s (s.setLp1 r ((s.lp1 r).setFc Config.chip f)) (fun q n => q = .lp1 r ∧ n ≤ 2) noMem :=
  untouched_setLp1 s r _ fun _ => onePoleReg_setFc _ _ _

theorem untouched_setLp1_withZ (z : F) :
    Untouched s (s.setLp1 r { s.lp1 r with z := z }) (fun q n => q = .lp1 r ∧ n = 3) noMem :=
  untouched_setLp1 s r _ fun _ => onePoleReg_withZ _ _

theorem untouched_setHp1_setFc (f : F) :
    Untouched s (s.setHp1 sd ((s.hp1 sd).setFc Config.chip f)) (fun q n => q = .hp1 sd ∧ n ≤ 2) noMem :=
  untouched_setHp1 s sd _ fun _ => onePoleReg_setFc _ _ _

theorem untouched_setHp1_withZ (z : F) :
    Untouched s (s.setHp1 sd { s.hp1 sd with z := z }) (fun q n => q = .hp1 sd ∧ n = 3) noMem :=
  untouched_setHp1 s sd _ fun _ => onePoleReg_withZ _ _

end

/-- Settles O24: a cutoff shows in registers 0 to 2 and the other commands in register 3, with `RES[A]` for a step; only the
high-pass step has to be brought into the form of the rule. -/
theorem onePoleCommands : Obligations.OnePoleCommands := by
  unfold Obligations.OnePoleCommands
  refine fun s u v hp => ⟨fun r hu => ?_, fun sd hu => ?_⟩
  · have hport (f : OnePole) : (s.setLp1 r f).port = .A := (s.setLp1_port r f).trans hp
    rw [exec_lpSetFc hp hu, exec_lpStep hp hu, exec_lpClr hp hu]
    refine ⟨fun hv => ?_, fun hv => ?_, ⟨_, rfl, ?_, ?_, ?_⟩, ?_⟩
    · rw [hv, check_true]
      exact ⟨_, rfl, s.lp1_setLp1 r _, untouched_setLp1_setFc s r v⟩
    · rw [hv, check_false]
    · rw [State.lp1_setRes, State.lp1_setLp1]
      rfl
    · exact resA_setRes (hport _) _
    · exact (untouched_setLp1_withZ s r _).setRes_A (hport _) _
    · exact ⟨_, rfl, s.lp1_setLp1 r _, untouched_setLp1_withZ s r fzero⟩
  · have hport (f : OnePole) : (s.setHp1 sd f).port = .A := (s.setHp1_port sd f).trans hp
    rw [exec_hpSetFc hp hu, exec_hpStep hp hu, exec_hpClr hp hu, hp1Step_eq]
    refine ⟨fun hv => ?_, fun hv => ?_, ⟨_, rfl, ?_, ?_, ?_⟩, ?_⟩
    · rw [hv, check_true]
      exact ⟨_, rfl, s.hp1_setHp1 sd _, untouched_setHp1_setFc s sd v⟩
    · rw [hv, check_false]
    · rw [State.hp1_setRes, State.hp1_setHp1]
      rfl
    · exact resA_setRes (hport _) _
    · exact (untouched_setHp1_withZ s sd _).setRes_A (hport _) _
    · exact ⟨_, rfl, s.hp1_setHp1 sd _, untouched_setHp1_withZ s sd fzero⟩

end Sys2Proof.Machine
end

section
/-! The shelf filters (spec/42_shelf.md): the clamp of the gain, and what each of the four commands does and leaves
untouched (R171, R172, R175 to R178). -/

namespace Sys2Proof.Machine

/-! ## The clamp of the gain (R171) -/

/-- The order of patterns that are not NaN is total. -/
theorem fle_of_not_flt {x y : F} (hx : isNaN x = false) (hy : isNaN y = false) (h : ¬ flt x y = true) :
    fle y x = true := by
  simp only [flt, fle, hx, hy, Bool.not_false, Bool.true_and, decide_eq_true_iff] at h ⊢
  exact not_lt.1 h

/-- A gain that is not NaN, an infinity among them, is clamped into the legal range of `GAIN` (R28). -/
theorem inRange_clampGain {g : F} (hg : isNaN g = false) :
    inRange (fneg Config.shelfGainLim) Config.shelfGainLim (clampGain g) = true := by
  unfold clampGain
  split
  · decide
  · next hlo =>
    split
    · decide
    · next hhi =>
      exact Bool.and_eq_true_iff.2 ⟨fle_of_not_flt hg (by decide) hlo, fle_of_not_flt (by decide) hg hhi⟩

/-! ## The commands on a unit that exists (R175 to R178) -/

section
variable {s : State} {u : UnitAddr} {r : ShelfRef} (hp : s.port = .A) (hu : unitOf u = some (.shelf r))
include hp hu

theorem exec_shSetF (f : Word) :
    exec (.shSetF u f) s =
      check (isFinite f) .cfgErr s (.next (s.setShelf r ((s.shelf r).setF Config.chip r.kind f))) :=
  onShelf_eq hp hu _

theorem exec_shSetG (g : Word) :
    exec (.shSetG u g) s =
      check (!isNaN g) .cfgErr s (.next (s.setShelf r ((s.shelf r).setG Config.chip r.kind g))) :=
  onShelf_eq hp hu _

theorem exec_shStep (v : Word) :
    exec (.shStep u v) s =
      .next ((s.setShelf r (shelfStep (s.shelf r) v).2).setRes (shelfStep (s.shelf r) v).1) :=
  onShelf_eq hp hu _

theorem exec_shClr : exec (.shClr u) s = .next (s.setShelf r (s.shelf r).clear) := onShelf_eq hp hu _

end

/-! ## The frame of the commands -/

section
variable (cfg : Config.Params) (k : Config.ShelfKind) (u : Shelf) {n : Nat}

/-- A new frequency shows in `FREQ` and the five coefficients alone. -/
theorem shelfReg_setF (f : F) (hn : ¬ (n = 0 ∨ 2 ≤ n ∧ n ≤ 6)) : shelfReg k (u.setF cfg k f) n = shelfReg k u n := by
  match n with
  | 0 | 2 | 3 | 4 | 5 | 6 => exact absurd (by decide) hn
  | 1 | 7 | 8 | 9 | 10 | 11 | _ + 12 => rfl

/-- A new gain shows in `GAIN` and the five coefficients alone. -/
theorem shelfReg_setG (g : F) (hn : ¬ (1 ≤ n ∧ n ≤ 6)) : shelfReg k (u.setG cfg k g) n = shelfReg k u n := by
  match n with
  | 1 | 2 | 3 | 4 | 5 | 6 => exact absurd (by decide) hn
  | 0 | 7 | 8 | 9 | 10 | 11 | _ + 12 => rfl

/-- A new history, which the step and the clear leave, shows in the registers 7 to 10 alone. -/
theorem shelfReg_withHistory (x1 x2 y1 y2 : F) (hn : ¬ (7 ≤ n ∧ n ≤ 10)) :
    shelfReg k { u with x1 := x1, x2 := x2, y1 := y1, y2 := y2 } n = shelfReg k u n := by
  match n with
  | 7 | 8 | 9 | 10 => exact absurd (by decide) hn
  | 0 | 1 | 2 | 3 | 4 | 5 | 6 | 11 | _ + 12 => rfl

end

section
variable (s : State) (r : ShelfRef)

theorem untouched_setShelf_setF (f : F) :
    Untouched s (s.setShelf r ((s.shelf r).setF Config.chip r.kind f))
      (fun q n => q = .shelf r ∧ (n = 0 ∨ 2 ≤ n ∧ n ≤ 6)) noMem :=
  untouched_setShelf s r _ fun _ => shelfReg_setF _ _ _ _

theorem untouched_setShelf_setG (g : F) :
    Untouched s (s.setShelf r ((s.shelf r).setG Config.chip r.kind g))
      (fun q n => q = .shelf r ∧ 1 ≤ n ∧ n ≤ 6) noMem :=
  untouched_setShelf s r _ fun _ => shelfReg_setG _ _ _ _

theorem untouched_setShelf_withHistory (x1 x2 y1 y2 : F) :
    Untouched s (s.setShelf r { s.shelf r with x1 := x1, x2 := x2, y1 := y1, y2 := y2 })
      (fun q n => q = .shelf r ∧ 7 ≤ n ∧ n ≤ 10) noMem :=
  untouched_setShelf s r _ fun _ => shelfReg_withHistory _ _ _ _ _ _

end

/-- Settles O26: each command on an existing shelf is one update of that shelf, with `RES[A]` for a step; the clamp brings
every gain that is not NaN into range. -/
theorem shelfCommands : Obligations.ShelfCommands := by
  unfold Obligations.ShelfCommands
  intro s u v r hp hu
  have hport (f : Shelf) : (s.setShelf r f).port = .A := (s.setShelf_port r f).trans hp
  rw [exec_shSetF hp hu, exec_shSetG hp hu, exec_shStep hp hu, exec_shClr hp hu]
  refine ⟨fun hv => ?_, fun hv => ?_, fun hv => ?_, fun hv => ?_, ⟨_, rfl, ?_, ?_, ?_⟩, ?_⟩
  · rw [hv, check_true]
    exact ⟨_, rfl, s.shelf_setShelf r _, untouched_setShelf_setF s r v⟩
  · rw [hv, check_false]
  · rw [hv, Bool.not_false, check_true]
    exact ⟨_, rfl, s.shelf_setShelf r _, inRange_clampGain hv, untouched_setShelf_setG s r v⟩
  · rw [hv, Bool.not_true, check_false]
  · rw [State.shelf_setRes, State.shelf_setShelf]
    rfl
  · exact resA_setRes (hport _) _
  · exact (untouched_setShelf_withHistory s r _ _ _ _).setRes_A (hport _) _
  · exact ⟨_, rfl, s.shelf_setShelf r _, untouched_setShelf_withHistory s r _ _ _ _⟩

end Sys2Proof.Machine
end

section
/-! The taps of a modulated delay (spec/43_allpass.md R193, R196, R208): both gains and both delays are functions of one
total length, which lies between 1 and twice the base delay; and the corner of binary32 in which the first tap meets that
bound, so that the second one is past it. -/

namespace Sys2Proof.Machine

/-! ## Integers and fractions of binary32 -/

/-- With finite values, the strict comparison is that of their units. -/
theorem flt_iff {x y : F} (hx : isFinite x = true) (hy : isFinite y = true) :
    flt x y = true ↔ toUnits x < toUnits y := by
  simp only [flt, isNaN_of_isFinite hx, isNaN_of_isFinite hy, Bool.not_false, Bool.true_and, decide_eq_true_eq]
  rw [← not_le, ← not_le, orderKey_le_iff]

/-- R12: `itof` is exact on integers of at most 24 bits, which are binary32 values. -/
theorem itof_exact {n : Nat} (hn : n ≤ 2 ^ 24) : isFinite (itof n) = true ∧ toUnits (itof n) = n * 2 ^ 149 := by
  obtain ⟨m, hm⟩ := exists_unitsOf_eq 149 hn
  have hinf : m < infBits := by
    rw [← unitsOf_lt_iff, hm, unitsOf_infBits]
    calc n * 2 ^ 149 ≤ 2 ^ 24 * 2 ^ 149 := Nat.mul_le_mul_right _ hn
      _ < 2 ^ 277 := by decide +kernel
  have hlt : m < 2 ^ 31 := hinf.trans (by decide)
  have hz : isFinite (withSign false m) = true := by rw [isFinite_iff, magBits_withSign false hlt]; exact hinf
  have hzu : toUnits (withSign false m) = n * 2 ^ 149 := by rw [toUnits_withSign_false hlt, hm]; push_cast; rfl
  obtain ⟨hf, hge, hle⟩ := (inRange_iff hz hz).1 (inRange_itof (n := n) hz hz hzu.le hzu.ge)
  exact ⟨hf, by rw [← hzu]; exact le_antisymm hle hge⟩

/-- The last place of a value of at least 1 is at least 2^-23. -/
theorem two_pow_126_dvd_toUnits {x : F} (hx : 2 ^ 149 ≤ toUnits x) : (2 ^ 126 : Int) ∣ toUnits x := by
  have hone : magBits fone ≤ magBits x := by
    rw [← unitsOf_le_iff, show unitsOf (magBits fone) = 2 ^ 149 by decide, ← magUnits_eq]
    unfold toUnits at hx
    split at hx <;> omega
  have hexp : 126 ≤ magBits x / 2 ^ 23 - 1 := by
    have hmag : magBits fone = 127 * 2 ^ 23 := by decide
    omega
  have hdvd : 2 ^ 126 ∣ magUnits x := by
    rw [magUnits_eq, unitsOf, if_neg (by omega)]
    exact (pow_dvd_pow 2 hexp).mul_left _
  unfold toUnits
  split
  · exact (Int.natCast_dvd_natCast.2 hdvd).neg_right
  · exact Int.natCast_dvd_natCast.2 hdvd

/-- The largest value below 1 at the last place of 1: 1 - 2^-23. -/
def belowOne : F := 0x3F7FFFFE#32

theorem toUnits_belowOne : toUnits belowOne = 2 ^ 149 - 2 ^ 126 := by decide

/-! ## The total length of the first tap -/

/-- The taps and gains of a total length (R196). -/
def Taps.ofTotal (t : F) : Taps where
  delayA := (ftoiFloor t).toNat
  delayB := (ftoiFloor t).toNat + 1
  gainA := fsub fone (fsub t (itof (ftoiFloor t)))
  gainB := fsub t (itof (ftoiFloor t))

/-- `TAPCALC` is a function of its total length. -/
theorem tapCalc_eq_ofTotal (cfg : Config.Params) (dly : Nat) (modA phase : F) :
    tapCalc cfg dly modA phase = .ofTotal (tapTotal (fadd (itof dly) (fmul (tapAmount (itof dly) modA)
      (sat1 (cfg.fsin (fmul Config.twoPi phase)))))) := rfl

section
variable {base a m hi : F} (hb : isFinite base = true) (hb1 : 2 ^ 149 ≤ toUnits base)
include hb hb1

/-- R196: the amount is brought below the base delay, or up to it where the difference is rounded. -/
theorem inRange_tapAmount_base (ha : isFinite a = true) (ha0 : 0 ≤ toUnits a) :
    inRange fzero base (tapAmount base a) = true := by
  unfold tapAmount
  split
  · refine inRange_fsub (by decide) hb hb (by decide) ?_ ?_ <;> simp only [toUnits_fzero, toUnits_fone] <;> linarith
  · next h =>
    rw [fle_iff hb ha, not_le] at h
    exact (inRange_iff (by decide) hb).2 ⟨ha, by rwa [toUnits_fzero], h.le⟩

/-- The total length lies between 1 and every bound on twice the base delay. -/
theorem inRange_tapTotal (ha : inRange fzero base a = true) (hm : inRange fnegOne fone m = true)
    (hhi : isFinite hi = true) (htwice : 2 * toUnits base ≤ toUnits hi) :
    inRange fone hi (tapTotal (fadd base (fmul a m))) = true := by
  obtain ⟨haf, ha0, ha1⟩ := (inRange_iff (by decide) hb).1 ha
  obtain ⟨hmf, hm0, hm1⟩ := (inRange_iff (by decide) (by decide)).1 hm
  simp only [toUnits_fzero, toUnits_fnegOne, toUnits_fone] at ha0 hm0 hm1
  have hprod : inRange (fneg base) base (fmul a m) = true :=
    inRange_fmul_of_abs hb haf hmf (abs_le.2 ⟨by linarith, ha1⟩) (abs_le.2 ⟨hm0, hm1⟩) le_rfl
  obtain ⟨hpf, hp0, hp1⟩ := (inRange_iff ((isFinite_fneg base).trans hb) hb).1 hprod
  rw [toUnits_fneg] at hp0
  have hsum : inRange fzero hi (fadd base (fmul a m)) = true :=
    inRange_fadd (by decide) hhi hb hpf (by rw [toUnits_fzero]; linarith) (by linarith)
  obtain ⟨hsf, -, hs1⟩ := (inRange_iff (by decide) hhi).1 hsum
  unfold tapTotal
  split
  · exact (inRange_iff (by decide) hhi).2 ⟨by decide, le_rfl, by rw [toUnits_fone]; linarith⟩
  · next h =>
    have hone : fle fone (fadd base (fmul a m)) = true := by simpa using h
    exact (inRange_iff (by decide) hhi).2 ⟨hsf, (fle_iff (by decide) hsf).1 hone, hs1⟩

end

section
variable {t : F} {n : Nat} (hn : n ≤ 2 ^ 24) (ht : inRange fone (itof n) t = true)
include hn ht

/-- The first tap of a total length from 1 to `n` is a natural number from 1 to `n`, its floor. -/
theorem ofTotal_delayA_bounds :
    ((Taps.ofTotal t).delayA : Int) = ftoiFloor t ∧ 1 ≤ (Taps.ofTotal t).delayA ∧ (Taps.ofTotal t).delayA ≤ n := by
  obtain ⟨hnf, hnu⟩ := itof_exact hn
  obtain ⟨htf, ht1, htn⟩ := (inRange_iff (by decide) hnf).1 ht
  rw [toUnits_fone] at ht1
  rw [hnu] at htn
  obtain ⟨hlo, hhi⟩ := ftoiFloor_bounds htf
  have hcast : ((Taps.ofTotal t).delayA : Int) = ftoiFloor t := Int.toNat_of_nonneg (by omega)
  omega

/-- The second gain is below 1: the total length and its floor are both multiples of 2^-23. -/
theorem inRange_ofTotal_gainB : inRange fzero belowOne (Taps.ofTotal t).gainB = true := by
  obtain ⟨hcast, -, hle⟩ := ofTotal_delayA_bounds hn ht
  obtain ⟨haf, hau⟩ := itof_exact (hle.trans hn)
  obtain ⟨htf, ht1, -⟩ := (inRange_iff (by decide) (itof_exact hn).1).1 ht
  rw [toUnits_fone] at ht1
  rw [hcast] at haf hau
  obtain ⟨hlo, hhi⟩ := ftoiFloor_bounds htf
  obtain ⟨q, hq⟩ := two_pow_126_dvd_toUnits ht1
  refine inRange_fsub (by decide) (by decide) htf haf ?_ ?_
  · rw [toUnits_fzero, hau]; linarith
  · rw [toUnits_belowOne, hau]; omega

end

theorem delayOk_iff {cap n : Nat} : delayOk cap n = true ↔ 1 ≤ n ∧ n ≤ cap - 2 := by
  simp only [delayOk, Bool.and_eq_true, decide_eq_true_eq]

/-- R196: the total length of a legal base delay and amount lies between 1 and twice the base delay. -/
theorem exists_tapCalc_eq_ofTotal (cfg : Config.Params) {cap dly : Nat} {modA : F} (phase : F) (hcap : cap ≤ 2 ^ 20)
    (hdly : delayOk cap dly = true) (hmod : modAOk cap modA = true) :
    ∃ t, tapCalc cfg dly modA phase = .ofTotal t ∧ inRange fone (itof (2 * dly : Nat)) t = true := by
  have hle := le_of_delayOk hdly
  have hpos : 1 ≤ dly := (delayOk_iff.1 hdly).1
  obtain ⟨hbf, hbu⟩ := itof_exact (n := dly) (by omega)
  obtain ⟨hcf, -⟩ := itof_exact (n := cap) (by omega)
  obtain ⟨htf, htu⟩ := itof_exact (n := 2 * dly) (by omega)
  obtain ⟨haf, ha0, -⟩ := (inRange_iff (by decide) hcf).1 hmod
  have hb1 : 2 ^ 149 ≤ toUnits (itof dly) := by rw [hbu]; omega
  refine ⟨_, tapCalc_eq_ofTotal cfg dly modA phase,
    inRange_tapTotal hbf hb1 (inRange_tapAmount_base hbf hb1 haf ha0) (inRange_sat1 _) htf ?_⟩
  rw [hbu, htu]
  push_cast
  linarith

/-- Settles O32: the taps are those of a total length between 1 and twice the base delay, which is at most 383998. -/
theorem tapRanges : Obligations.TapRanges := by
  unfold Obligations.TapRanges
  intro cfg dly modA phase hdly hmod
  obtain ⟨t, heq, ht⟩ := exists_tapCalc_eq_ofTotal cfg phase dlCap_le hdly hmod
  have hlegal : dly ≤ 383998 := (delayOk_iff.1 hdly).2
  have hbound : 2 * dly ≤ 2 ^ 24 := by omega
  obtain ⟨-, hpos, hle⟩ := ofTotal_delayA_bounds hbound ht
  have hgain := inRange_ofTotal_gainB hbound ht
  obtain ⟨hgf, hg0, hg1⟩ := (inRange_iff (by decide) (by decide)).1 hgain
  rw [toUnits_belowOne] at hg1
  rw [heq]
  refine ⟨hpos, hle.trans_lt (by rw [Config.dlCap]; omega), rfl, (Bool.and_eq_true_iff.1 hgain).1, ?_, rfl, ?_⟩
  · rw [flt_iff hgf (by decide), toUnits_fone]
    linarith
  · exact (inUnit_iff.1 (inUnit_one_sub (inUnit_iff.2 ⟨hgf, hg0, by linarith⟩))).1

/-! ## The corner of R208 -/

/-- Parameters whose sine is 0 at 0 and 1 everywhere else: all that `SIN_RANGE` and `SIN_ZERO` ask of it. -/
def peakSine : Config.Params := { (default : Config.Params) with fsin := fun v => if v = fzero then fzero else fone }

/-- With the amount one place below the base delay 19198, the sum 38396 - 2^-9 is a tie that rounds to 38396. -/
theorem tapCalc_corner : (tapCalc peakSine 19198 0x4695FBFF#32 0x3E800000#32).delayB = 38397 := by decide +kernel

/-- Refutes O33: base delay 19198, amount 0x4695FBFF, phase a quarter, sine 1; the second tap is 38397. -/
theorem not_tapBoundOfR208 : ¬ Obligations.TapBoundOfR208 := by
  unfold Obligations.TapBoundOfR208
  intro h
  have hrange (v : F) : fle fnegOne (peakSine.fsin v) = true ∧ fle (peakSine.fsin v) fone = true := by
    show fle fnegOne (if v = fzero then fzero else fone) = true ∧ fle (if v = fzero then fzero else fone) fone = true
    split <;> decide
  have hbound := h peakSine 19198 0x4695FBFF#32 0x3E800000#32 (fun v _ => hrange v) rfl (by decide) (by decide)
    (by decide) (by decide)
  rw [tapCalc_corner] at hbound
  exact absurd hbound (by decide)

end Sys2Proof.Machine
end

section
/-! Zeros and values that are not finite as operands (spec/00_scope.md R11): a zero adds nothing but the sign of a zero, a
product with a zero is a zero or a NaN, and no sum makes a value finite. -/

namespace Sys2Proof.Machine

/-- Equal bit for bit but for the sign of a zero: `x` is `y`, or `y` is `-0` and `x` a zero. -/
def EqButZeroSign (x y : F) : Prop := feq x y = true ∧ (y ≠ 0x80000000#32 → x = y)

/-! ## Zero operands -/

section
variable {x y z : F}

theorem isFinite_of_isZero (hz : isZero z = true) : isFinite z = true := by
  rw [isFinite_iff, beq_iff_eq.1 hz]
  decide

theorem magUnits_of_isZero (hz : isZero z = true) : magUnits z = 0 := by
  rw [magUnits_eq, beq_iff_eq.1 hz]
  rfl

theorem toUnits_of_isZero (hz : isZero z = true) : toUnits z = 0 := by simp [toUnits, magUnits_of_isZero hz]

theorem eq_zero_of_isZero (hz : isZero z = true) : z = if signBit z = true then 0x80000000#32 else 0x00000000#32 := by
  rw [← withSign_signBit_magBits z, beq_iff_eq.1 hz]
  cases signBit z <;> rfl

theorem feq_self (hx : isFinite x = true) : feq x x = true := by
  simp [feq, isNaN_of_isFinite hx]

/-- Rounding the units of a value that is no zero gives the value, whatever the sign of a zero would be. -/
theorem roundUnits_toUnits_of_not_isZero (zneg : Bool) (hx : isFinite x = true) (h0 : isZero x = false) :
    roundUnits zneg (toUnits x) = x := by
  have hpos := magUnits_pos h0
  have hround : roundMag (magUnits x) 1 = magBits x := by simpa using roundMag_magUnits hx one_pos
  have hsign : toUnits x ≠ 0 ∧ decide (toUnits x < 0) = signBit x ∧ (toUnits x).natAbs = magUnits x := by
    unfold toUnits
    cases signBit x <;> simp only [Bool.false_eq_true, if_true, if_false, decide_eq_true_eq, decide_eq_false_iff_not]
    · omega
    · omega
  obtain ⟨hne, hneg, habs⟩ := hsign
  rw [roundUnits, if_neg hne, hneg, habs, hround, withSign_signBit_magBits]

/-- Rounding the units of a finite value gives the value, but for the sign of a zero: a `+0` is kept where `zneg` is not
set. -/
theorem eqButZeroSign_roundUnits {zneg : Bool} (hx : isFinite x = true) (hs : signBit x = false → zneg = false) :
    EqButZeroSign (roundUnits zneg (toUnits x)) x := by
  cases h0 : isZero x with
  | false =>
    rw [roundUnits_toUnits_of_not_isZero zneg hx h0]
    exact ⟨feq_self hx, fun _ => rfl⟩
  | true =>
    rw [roundUnits_of_eq_zero zneg (toUnits_of_isZero h0), eq_zero_of_isZero h0]
    cases hneg : signBit x with
    | false => rw [hs hneg]; exact ⟨by decide, fun _ => rfl⟩
    | true => exact ⟨by cases zneg <;> decide, fun h => absurd rfl h⟩

theorem eqButZeroSign_fadd (hx : isFinite x = true) (hz : isZero z = true) : EqButZeroSign (fadd x z) x := by
  rw [fadd_of_isFinite hx (isFinite_of_isZero hz), toUnits_of_isZero hz, add_zero]
  exact eqButZeroSign_roundUnits hx fun h => by rw [h, Bool.false_and]

theorem eqButZeroSign_fsub (hx : isFinite x = true) (hz : isZero z = true) : EqButZeroSign (fsub x z) x := by
  rw [fsub_of_isFinite hx (isFinite_of_isZero hz), toUnits_of_isZero hz, sub_zero]
  exact eqButZeroSign_roundUnits hx fun h => by rw [h, Bool.false_and]

theorem EqButZeroSign.isFinite (h : EqButZeroSign x y) (hy : isFinite y = true) : isFinite x = true := by
  obtain ⟨heq, -⟩ := h
  have hkey : orderKey x = orderKey y := by
    rw [feq, Bool.and_eq_true] at heq
    exact of_decide_eq_true heq.2
  rwa [isFinite_iff, ← natAbs_orderKey, hkey, natAbs_orderKey, ← isFinite_iff]

/-- `0 * x` is a zero for a finite `x`. -/
theorem isZero_fmul (hz : isZero z = true) (hx : isFinite x = true) : isZero (fmul z x) = true := by
  have hround : roundMag 0 (2 ^ 149) = 0 := by decide +kernel
  rw [fmul_of_isFinite (isFinite_of_isZero hz) hx, magUnits_of_isZero hz, zero_mul, hround]
  exact beq_iff_eq.2 (magBits_withSign _ (by decide))

/-! ## Operands that are not finite -/

/-- What is not finite is a NaN or an infinity. -/
theorem isFinite_eq_false_iff : isFinite x = false ↔ isNaN x = true ∨ isInf x = true := by
  rw [isFinite, isNaN, isInf, decide_eq_false_iff_not, decide_eq_true_iff, beq_iff_eq]
  omega

/-- R207: `0 * x` is a NaN for an infinite `x` and for a NaN. -/
theorem isNaN_fmul_of_isZero (hz : isZero z = true) (hx : isFinite x = false) : isNaN (fmul z x) = true := by
  unfold fmul
  obtain hnan | hinf := isFinite_eq_false_iff.1 hx
  · simp only [hnan, Bool.or_true, if_true, isNaN_nanResult]
  · simp only [hinf, hz, Bool.or_true, Bool.true_or, if_true, isNaN_nanResult, ite_self]

theorem isNaN_fsub_of_isNaN (hy : isNaN y = true) : isNaN (fsub x y) = true := by
  rw [fsub, hy, Bool.or_true, if_pos rfl]
  exact isNaN_nanResult _ _ _

/-- A sum with an operand that is not finite is not finite. -/
theorem isFinite_fadd_eq_false (h : isFinite x = false ∨ isFinite y = false) : isFinite (fadd x y) = false := by
  have hnan (op : Config.FloatOp) : isFinite (nanResult op x y) = false :=
    isFinite_eq_false_iff.2 (.inl (isNaN_nanResult op x y))
  rw [isFinite_eq_false_iff, isFinite_eq_false_iff] at h
  unfold fadd addCore
  split
  · exact hnan _
  · next hnn =>
    obtain ⟨hx, hy⟩ := not_or.1 (mt (Bool.or_eq_true _ _).mpr hnn)
    have hinf : isInf x = true ∨ isInf y = true := h.imp (Or.resolve_left · hx) (Or.resolve_left · hy)
    split
    · next hxi =>
      split
      · exact hnan _
      · exact isFinite_eq_false_iff.2 (.inr hxi)
    · next hxi =>
      have hyi := hinf.resolve_left hxi
      rw [if_pos hyi]
      exact isFinite_eq_false_iff.2 (.inr hyi)

end

end Sys2Proof.Machine
end

section
/-! The all-pass (spec/43_allpass.md): what each of its eight commands does and leaves untouched (R197 to R206), and the
passthrough law of a zero feedback (R207). -/

namespace Sys2Proof.Machine

/-! ## The legal operands (R199, R201 to R204) -/

theorem modAOk_iff {max : Nat} {a : F} : modAOk max a = true ↔ fle fzero a = true ∧ fle a (itof max) = true :=
  Bool.and_eq_true_iff

theorem modROk_iff {r : F} : modROk r = true ↔ fle fnegOne r = true ∧ fle r fone = true := Bool.and_eq_true_iff

theorem boolOk_iff {b : Word} : boolOk b = true ↔ b.toNat ≤ 1 := decide_eq_true_iff

/-- A legal operand of type `B` is its own bit 0 (R102). -/
theorem boolOf_eq {b : Word} (h : b.toNat ≤ 1) : boolOf b = (b == 1#32) := by
  obtain h0 | h1 : b.toNat = 0 ∨ b.toNat = 1 := by omega
  · rw [show b = 0#32 from BitVec.eq_of_toNat_eq h0]; rfl
  · rw [show b = 1#32 from BitVec.eq_of_toNat_eq h1]; rfl

/-! ## The commands on a unit that exists (R199 to R206) -/

section
variable {s : State} {u : UnitAddr} {r : MapRef} (hp : s.port = .A) (hu : unitOf u = some (.map r))
include hp hu

theorem exec_apSetDly (v : Word) :
    exec (.apSetDly u v) s =
      check (delayOk Config.apCap v.toNat) .cfgErr s (.next (s.setMap r ((s.map r).setDly Config.chip v.toNat))) :=
  onMap_eq hp hu _

theorem exec_apSetFb (v : Word) :
    exec (.apSetFb u v) s = check (isFinite v) .cfgErr s (.next (s.setMap r ((s.map r).setFb v))) := onMap_eq hp hu _

theorem exec_apSetModA (v : Word) :
    exec (.apSetModA u v) s =
      check (modAOk Config.apCap v) .cfgErr s (.next (s.setMap r ((s.map r).setModA Config.chip v))) :=
  onMap_eq hp hu _

theorem exec_apSetModR (v : Word) :
    exec (.apSetModR u v) s = check (modROk v) .cfgErr s (.next (s.setMap r ((s.map r).setModR v))) := onMap_eq hp hu _

theorem exec_apSetInterp (v : Word) :
    exec (.apSetInterp u v) s = check (boolOk v) .cfgErr s (.next (s.setMap r ((s.map r).setInterp (boolOf v)))) :=
  onMap_eq hp hu _

theorem exec_apSetModEn (v : Word) :
    exec (.apSetModEn u v) s = check (boolOk v) .cfgErr s (.next (s.setMap r ((s.map r).setModEn (boolOf v)))) :=
  onMap_eq hp hu _

theorem exec_apStep (v : Word) :
    exec (.apStep u v) s =
      .next ((s.setMap r (mapStep Config.chip (s.map r) v).2).setRes (mapStep Config.chip (s.map r) v).1) :=
  onMap_eq hp hu _

theorem exec_apClr : exec (.apClr u) s = .next (s.setMap r (s.map r).clear) := onMap_eq hp hu _

end

/-! ## The registers that a setting shows in (R29) -/

section
variable (cfg : Config.Params) (u : Allpass) {n : Nat}

theorem mapReg_withDlyTaps (d : Nat) (t : Taps) (hn : ¬ (n = 0 ∨ 7 ≤ n ∧ n ≤ 10)) :
    mapReg { u with core := { u.core with dly := d, taps := t } } n = mapReg u n := by
  match n with
  | 0 | 7 | 8 | 9 | 10 => exact absurd (by decide) hn
  | 1 | 2 | 3 | 4 | 5 | 6 | 11 | _ + 12 => rfl

theorem mapReg_setDly (d : Nat) (hn : ¬ (n = 0 ∨ 7 ≤ n ∧ n ≤ 10)) : mapReg (u.setDly cfg d) n = mapReg u n :=
  mapReg_withDlyTaps u d _ hn

theorem mapReg_setFb (g : F) (hn : n ≠ 1) : mapReg (u.setFb g) n = mapReg u n := by
  match n with
  | 1 => exact absurd rfl hn
  | 0 | 2 | 3 | 4 | _ + 5 => rfl

theorem mapReg_withModATaps (a : F) (t : Taps) (hn : ¬ (n = 2 ∨ 7 ≤ n ∧ n ≤ 10)) :
    mapReg { u with core := { u.core with modA := a, taps := t } } n = mapReg u n := by
  match n with
  | 2 | 7 | 8 | 9 | 10 => exact absurd (by decide) hn
  | 0 | 1 | 3 | 4 | 5 | 6 | 11 | _ + 12 => rfl

theorem mapReg_setModA (a : F) (hn : ¬ (n = 2 ∨ 7 ≤ n ∧ n ≤ 10)) : mapReg (u.setModA cfg a) n = mapReg u n :=
  mapReg_withModATaps u a _ hn

theorem mapReg_setModR (f : F) (hn : n ≠ 3) : mapReg (u.setModR f) n = mapReg u n := by
  match n with
  | 3 => exact absurd rfl hn
  | 0 | 1 | 2 | 4 | 5 | 6 | 7 | 8 | 9 | 10 | 11 | _ + 12 => rfl

/-- The two flags share register 4. -/
theorem mapReg_withFlags (b : BitVec 2) (hn : n ≠ 4) : mapReg { u with flags := b } n = mapReg u n := by
  match n with
  | 4 => exact absurd rfl hn
  | 0 | 1 | 2 | 3 | _ + 5 => rfl

/-- A core with the three settings unchanged differs in the registers 5 to 11 alone. -/
theorem mapReg_withCore {c : ModDelay} (hdly : c.dly = u.core.dly) (hmodA : c.modA = u.core.modA)
    (hmodR : c.modR = u.core.modR) (hn : ¬ (5 ≤ n ∧ n ≤ 11)) : mapReg { u with core := c } n = mapReg u n := by
  match n with
  | 0 => exact congrArg (some ∘ intReg) hdly
  | 2 => exact congrArg some hmodA
  | 3 => exact congrArg some hmodR
  | 5 | 6 | 7 | 8 | 9 | 10 | 11 => exact absurd (by decide) hn
  | 1 | 4 | _ + 12 => rfl

end

/-! ## The settings (R199 to R204) -/

section
variable {s : State} {r : MapRef} {f : Allpass} {P : Nat → Prop}

/-- A unit with its buffer as it was touches the registers it differs in. -/
theorem untouched_setMap_reg (hbuf : f.core.buf = (s.map r).core.buf)
    (hP : ∀ n, ¬ P n → mapReg f n = mapReg (s.map r) n) :
    Untouched s (s.setMap r f) (fun q n => q = .map r ∧ P n) noMem :=
  (untouched_setMap s r f (Q := fun _ => False) hP fun _ _ => by rw [hbuf]).mono (fun _ _ => id) fun _ _ _ h => h.2.2

/-- What a setting of an existing all-pass does: the unit `f` where the check passes, `Fault(CFGERR)` where it fails. -/
theorem setting_effect {o : Out} {ok : Bool} {Q : Prop} (ho : o = check ok .cfgErr s (.next (s.setMap r f)))
    (hok : ok = true ↔ Q) (hbuf : f.core.buf = (s.map r).core.buf)
    (hP : ∀ n, ¬ P n → mapReg f n = mapReg (s.map r) n) :
    (Q → ∃ t, o = .next t ∧ t.map r = f ∧ Untouched s t (fun q n => q = .map r ∧ P n) noMem) ∧
    (¬ Q → o = .next (s.raise .cfgErr)) := by
  subst ho
  refine ⟨fun h => ?_, fun h => ?_⟩
  · rw [hok.2 h, check_true]
    exact ⟨_, rfl, s.map_setMap r f, untouched_setMap_reg hbuf hP⟩
  · rw [Bool.eq_false_iff.2 (mt hok.1 h), check_false]

end

/-- Settles O27: each setting is one update of the unit under one check, and shows in its own registers alone. -/
theorem allpassSettings : Obligations.AllpassSettings := by
  unfold Obligations.AllpassSettings
  intro s u v r hp hu
  obtain ⟨hdly, hdly'⟩ := setting_effect (exec_apSetDly hp hu v) delayOk_iff rfl fun _ => mapReg_setDly _ _ _
  obtain ⟨hfb, hfb'⟩ := setting_effect (exec_apSetFb hp hu v) Iff.rfl rfl fun _ => mapReg_setFb _ _
  obtain ⟨hmodA, hmodA'⟩ := setting_effect (exec_apSetModA hp hu v) modAOk_iff rfl fun _ => mapReg_setModA _ _ _
  obtain ⟨hmodR, hmodR'⟩ := setting_effect (exec_apSetModR hp hu v) modROk_iff rfl fun _ => mapReg_setModR _ _
  obtain ⟨hinterp, hinterp'⟩ := setting_effect (exec_apSetInterp hp hu v) boolOk_iff rfl fun _ => mapReg_withFlags _ _
  obtain ⟨hmodEn, hmodEn'⟩ := setting_effect (exec_apSetModEn hp hu v) boolOk_iff rfl fun _ => mapReg_withFlags _ _
  refine ⟨hdly, hdly', hfb, fun h => hfb' (Bool.eq_false_iff.1 h), hmodA, hmodA', hmodR, hmodR', fun h => ?_,
    fun h => ⟨hinterp' h.not_ge, hmodEn' h.not_ge⟩⟩
  rw [← boolOf_eq h]
  exact ⟨hinterp h, hmodEn h⟩

/-! ## The step and the clear (R198, R205, R206) -/

section
variable (cfg : Config.Params) (u : Allpass)

/-- The delay of an all-pass after the modulation update of a step: due in the modulated mode when `CNT` has reached 8
(R197, R198). -/
def Allpass.updated : ModDelay :=
  if flagModEn u.flags = true ∧ 8 ≤ u.core.cnt then
    { u.core with
      phase := nextPhase u.core.phase u.core.modR
      cnt := 0
      taps := tapCalc cfg u.core.dly u.core.modA (nextPhase u.core.phase u.core.modR) }
  else u.core

theorem Allpass.updated_of_modEn (h : flagModEn u.flags = true) : u.updated cfg = u.core.tick cfg := by
  unfold Allpass.updated ModDelay.tick
  exact if_congr ⟨And.right, And.intro h⟩ rfl rfl

theorem Allpass.updated_of_not_modEn (h : ¬ flagModEn u.flags = true) : u.updated cfg = u.core :=
  if_neg fun hc => h hc.1

/-- The update writes phase, count and taps alone. -/
theorem Allpass.updated_frame :
    (u.updated cfg).dly = u.core.dly ∧ (u.updated cfg).modA = u.core.modA ∧ (u.updated cfg).modR = u.core.modR ∧
    (u.updated cfg).buf = u.core.buf ∧ (u.updated cfg).widx = u.core.widx := by
  unfold Allpass.updated
  split <;> exact ⟨rfl, rfl, rfl, rfl, rfl⟩

/-- The count goes on in the modulated mode alone. -/
theorem Allpass.read_snd : (u.read cfg).2 = { u.updated cfg with
    cnt := if flagModEn u.flags then (u.updated cfg).cnt + 1 else (u.updated cfg).cnt } := by
  by_cases h : flagModEn u.flags = true
  · rw [if_pos h, u.updated_of_modEn cfg h, Allpass.read, if_pos h]
  · rw [if_neg h, u.updated_of_not_modEn cfg h, Allpass.read, if_neg h]

/-- The value read: in the modulated mode at the updated taps, else at the base delay. -/
theorem Allpass.read_fst : (u.read cfg).1 =
    if flagModEn u.flags then
      (if flagInterp u.flags then
        fadd (fmul (u.core.tap Config.apCap (u.updated cfg).taps.delayA) (u.updated cfg).taps.gainA)
          (fmul (u.core.tap Config.apCap (u.updated cfg).taps.delayB) (u.updated cfg).taps.gainB)
      else u.core.tap Config.apCap (u.updated cfg).taps.delayA)
    else u.core.tap Config.apCap u.core.dly := by
  by_cases h : flagModEn u.flags = true
  · obtain ⟨-, -, -, hbuf, hwidx⟩ := u.updated_frame cfg
    have htap (d : Nat) : u.core.tap Config.apCap d = (u.updated cfg).tap Config.apCap d := by
      rw [ModDelay.tap, ModDelay.tap, hbuf, hwidx]
    rw [if_pos h]
    simp only [htap]
    rw [u.updated_of_modEn cfg h, Allpass.read, if_pos h]
    rfl
  · rw [if_neg h, Allpass.read, if_neg h]

/-- The word a step writes (R192). -/
def Allpass.written (v : F) : F := fadd v (fmul u.fb (u.read cfg).1)

theorem mapStep_fst (v : F) :
    (mapStep cfg u v).1 = fsub (u.read cfg).1 (fmul u.fb (u.written cfg v)) := rfl

theorem mapStep_snd_of_read (v : F) :
    (mapStep cfg u v).2 = { u with core := { (u.read cfg).2 with
      buf := memWrite (u.read cfg).2.buf (u.read cfg).2.widx (u.written cfg v)
      widx := advance (u.read cfg).2.widx Config.apCap } } := rfl

/-- The unit after a step: what the update left, with one word written at the cursor and the cursor advanced (R198). -/
theorem mapStep_snd (v : F) :
    (mapStep cfg u v).2 = { u with core := { u.updated cfg with
      cnt := if flagModEn u.flags then (u.updated cfg).cnt + 1 else (u.updated cfg).cnt
      buf := memWrite u.core.buf u.core.widx (u.written cfg v)
      widx := advance u.core.widx Config.apCap } } := by
  obtain ⟨-, -, -, hbuf, hwidx⟩ := u.updated_frame cfg
  rw [← hbuf, ← hwidx, mapStep_snd_of_read, u.read_snd cfg]

theorem mapStep_buf (v : F) :
    (mapStep cfg u v).2.core.buf = memWrite u.core.buf u.core.widx (u.written cfg v) := by rw [mapStep_snd]

theorem mapReg_mapStep (v : F) {n : Nat} (hn : ¬ (5 ≤ n ∧ n ≤ 11)) : mapReg (mapStep cfg u v).2 n = mapReg u n := by
  obtain ⟨hdly, hmodA, hmodR, -, -⟩ := u.updated_frame cfg
  rw [mapStep_snd]
  exact mapReg_withCore u hdly hmodA hmodR hn

end

/-- A clear of the words below `cap` leaves the others, whatever the form of the memory. -/
theorem memRead_memClear_of_le (m : Mem) {cap i : Nat} (h : cap ≤ i) : memRead (memClear cap m) i = memRead m i := by
  induction m with
  | nil => rfl
  | cons c m ih =>
    obtain ⟨b, w⟩ := c
    unfold memClear at ih ⊢
    rw [List.filter_cons]
    split
    · rw [memRead, memRead, ih]
    · next hb =>
      have hne : i ≠ b := by rintro rfl; exact hb (decide_eq_true h)
      rw [ih, memRead, if_neg hne]

/-- A result written on port `A` adds `RES[A]` to what was touched before, memory words among it. -/
theorem Untouched.setRes_A_of_mem {s t : State} {R : UnitRef → Nat → Prop} {M : UnitRef → Nat → Nat → Prop}
    (h : Untouched s t R M) (hp : t.port = .A) (v : Word) :
    Untouched s (t.setRes v) (fun q n => R q n ∨ (q = .sys ∧ n = 4)) M :=
  (h.trans (untouched_setRes t v)).mono (fun _ _ => Or.imp_right (resReg_A hp).1) fun _ _ _ h => h.resolve_right id

section
variable (s : State) (r : MapRef)

theorem untouched_setMap_mapStep (v : F) :
    Untouched s (s.setMap r (mapStep Config.chip (s.map r) v).2) (fun q n => q = .map r ∧ 5 ≤ n ∧ n ≤ 11)
      (fun q m i => q = .map r ∧ m = 0 ∧ i = (s.map r).core.widx) :=
  untouched_setMap s r _ (fun _ => mapReg_mapStep _ _ _) fun i hi => by rw [mapStep_buf, memRead_memWrite_ne _ _ hi]

theorem untouched_setMap_clear :
    Untouched s (s.setMap r (s.map r).clear) noReg (fun q m i => q = .map r ∧ m = 0 ∧ i < 19200) :=
  (untouched_setMap s r (s.map r).clear (P := fun _ => False) (fun _ _ => rfl)
    fun _ hi => memRead_memClear_of_le _ (not_lt.1 hi)).mono (fun _ _ h => h.2) fun _ _ _ => id

/-- R206: a cleared word reads `+0`. -/
theorem readMem_setMap_clear (hwf : Memory.wf (s.map r).core.buf = true) {i : Nat} (hi : i < Config.apCap) :
    readMem (s.setMap r (s.map r).clear) (.map r) 0 i = some 0#32 := by
  rw [readMem_eq, unitMem_setMap_self]
  simp only [onlyMem, if_true, shownMem, hi]
  exact congrArg some ((memRead_memClear hwf _ _).trans (if_pos hi))

end

/-- Settles O28: the step is the read at the updated taps, one word written and `RES[A]`; the clear leaves `+0`. -/
theorem allpassStep : Obligations.AllpassStep := by
  unfold Obligations.AllpassStep
  intro s u v r hp hu f
  have hport (g : Allpass) : (s.setMap r g).port = .A := (s.setMap_port r g).trans hp
  rw [exec_apStep hp hu, exec_apClr hp hu]
  refine ⟨⟨_, rfl, ?_, ?_, ?_⟩, _, rfl, fun hwf i hi => readMem_setMap_clear s r hwf hi, untouched_setMap_clear s r⟩
  · rw [State.map_setRes, State.map_setMap, mapStep_snd, Allpass.written, Allpass.read_fst]
    rfl
  · rw [resA_setRes (hport _), mapStep_fst, Allpass.written, Allpass.read_fst]
    rfl
  · exact (untouched_setMap_mapStep s r v).setRes_A_of_mem (hport _) _

/-! ## The passthrough law (R207) -/

section
variable {cfg : Config.Params} {u : Allpass} (hfb : isZero u.fb = true)
include hfb

/-- With a zero feedback and finite values the step writes its input and returns the value read. -/
theorem mapStep_passthrough {v : F} (hd : isFinite (u.read cfg).1 = true) (hv : isFinite v = true) :
    EqButZeroSign (u.written cfg v) v ∧ EqButZeroSign (mapStep cfg u v).1 (u.read cfg).1 := by
  have hw : EqButZeroSign (u.written cfg v) v := eqButZeroSign_fadd hv (isZero_fmul hfb hd)
  exact ⟨hw, eqButZeroSign_fsub hd (isZero_fmul hfb (hw.isFinite hv))⟩

/-- With a zero feedback and a value that is not finite the word written is not finite, and the value returned a NaN. -/
theorem isNaN_mapStep {v : F} (h : ¬ (isFinite (u.read cfg).1 = true ∧ isFinite v = true)) :
    isNaN (mapStep cfg u v).1 = true := by
  have hw : isFinite (u.written cfg v) = false := by
    refine isFinite_fadd_eq_false ?_
    cases hd : isFinite (u.read cfg).1 with
    | false => exact .inr (isFinite_eq_false_iff.2 (.inl (isNaN_fmul_of_isZero hfb hd)))
    | true => exact .inl (Bool.eq_false_iff.2 fun hv => h ⟨hd, hv⟩)
  exact isNaN_fsub_of_isNaN (isNaN_fmul_of_isZero hfb hw)

end

/-- Settles O29: a zero feedback multiplies a finite value to a zero, which adds nothing, and any other to a NaN. -/
theorem passthrough : Obligations.Passthrough := by
  unfold Obligations.Passthrough
  intro s u v r hp hu hfb hwf
  have hport (g : Allpass) : (s.setMap r g).port = .A := (s.setMap_port r g).trans hp
  refine ⟨_, _, exec_apStep hp hu v, rfl, ?_⟩
  rw [State.map_setRes, State.map_setMap, mapStep_buf, memRead_memWrite hwf, if_pos rfl, resA_setRes (hport _)]
  refine ⟨fun hd hv => ?_, isNaN_mapStep hfb⟩
  obtain ⟨⟨hw, hw'⟩, hout, hout'⟩ := mapStep_passthrough hfb hd hv
  exact ⟨hw, hout, hw', hout'⟩

end Sys2Proof.Machine
end

section
/-! The all-pass diffuser (spec/44_diffuser.md): the cascade of its first `STAGES` stages (R235), and what
each of its eleven commands does and leaves untouched (R223 to R234). -/

namespace Sys2Proof.Machine

/-! ## The commands on a unit that exists (R224 to R234) -/

section
variable {s : State} {u : UnitAddr} {r : DiffRef} (hp : s.port = .A) (hu : unitOf u = some (.diff r))
include hp hu

theorem exec_dfSetStages (v : Word) :
    exec (.dfSetStages u v) s =
      check (stagesOk v.toNat) .cfgErr s (.next (s.setDiff r ((s.diff r).setStages v.toNat))) := onDiff_eq hp hu _

theorem exec_dfSetDly (v : Word) :
    exec (.dfSetDly u v) s =
      check (delayOk Config.apCap v.toNat) .cfgErr s
        (.next (s.setDiff r (Diffuser.update Config.chip { s.diff r with dly := v.toNat }))) := onDiff_eq hp hu _

theorem exec_dfSetFb (v : Word) :
    exec (.dfSetFb u v) s = check (isFinite v) .cfgErr s (.next (s.setDiff r ((s.diff r).setFb v))) :=
  onDiff_eq hp hu _

theorem exec_dfSetModA (v : Word) :
    exec (.dfSetModA u v) s =
      check (modAOk (Config.apCap / 2) v) .cfgErr s
        (.next (s.setDiff r (Diffuser.update Config.chip { s.diff r with modA := v }))) := onDiff_eq hp hu _

theorem exec_dfSetModR (v : Word) :
    exec (.dfSetModR u v) s =
      check (diffModROk v) .cfgErr s
        (.next (s.setDiff r (Diffuser.update Config.chip { s.diff r with modR := v }))) := onDiff_eq hp hu _

theorem exec_dfSetSeed (v : Word) :
    exec (.dfSetSeed u v) s = .next (s.setDiff r (Diffuser.update Config.chip { s.diff r with seed := v })) :=
  onDiff_eq hp hu _

theorem exec_dfSetX (v : Word) :
    exec (.dfSetX u v) s =
      check (inUnit v) .cfgErr s
        (.next (s.setDiff r (Diffuser.update Config.chip { s.diff r with xseed := v }))) := onDiff_eq hp hu _

theorem exec_dfSetInterp (v : Word) :
    exec (.dfSetInterp u v) s =
      check (boolOk v) .cfgErr s (.next (s.setDiff r ((s.diff r).setInterp (boolOf v)))) := onDiff_eq hp hu _

theorem exec_dfSetModEn (v : Word) :
    exec (.dfSetModEn u v) s =
      check (boolOk v) .cfgErr s (.next (s.setDiff r ((s.diff r).setModEn (boolOf v)))) := onDiff_eq hp hu _

theorem exec_dfStep (v : Word) :
    exec (.dfStep u v) s =
      .next ((s.setDiff r (diffStep Config.chip (s.diff r) v).2).setRes (diffStep Config.chip (s.diff r) v).1) :=
  onDiff_eq hp hu _

theorem exec_dfClr : exec (.dfClr u) s = .next (s.setDiff r (s.diff r).clear) := onDiff_eq hp hu _

end

/-! ## The cascade (R235) -/

section
variable (cfg : Config.Params)

/-- A stage below `STAGES` is stepped with the sample so far. -/
theorem cascadeStage_of_lt {stages : Nat} (acc : F × Vector Allpass 12) {k : Fin 12} (h : k.val < stages) :
    cascadeStage cfg stages acc k = ((mapStep cfg acc.2[k] acc.1).1, acc.2.set k (mapStep cfg acc.2[k] acc.1).2) :=
  if_pos h

/-- A stage at `STAGES` or above takes no part. -/
theorem cascadeStage_of_le {stages : Nat} (acc : F × Vector Allpass 12) {k : Fin 12} (h : stages ≤ k.val) :
    cascadeStage cfg stages acc k = acc := if_neg h.not_gt

theorem cascadeStage_stage_ne (stages : Nat) (acc : F × Vector Allpass 12) {k j : Fin 12} (h : j ≠ k) :
    (cascadeStage cfg stages acc k).2[j] = acc.2[j] := by
  obtain hk | hk := lt_or_ge k.val stages
  · rw [cascadeStage_of_lt cfg acc hk, vec_set_get, if_neg h]
  · rw [cascadeStage_of_le cfg acc hk]

variable (d : Diffuser) (v : F)

/-- The sample and the stages when the first `n` places of the cascade are passed. -/
def Diffuser.cascade (n : Nat) : F × Vector Allpass 12 := (idx12.take n).foldl (cascadeStage cfg d.stages) (v, d.stage)

/-- `DIFF_step` is the cascade through all 12 places. -/
theorem diffStep_eq_cascade :
    diffStep cfg d v = ((d.cascade cfg v 12).1, { d with stage := (d.cascade cfg v 12).2 }) := rfl

theorem Diffuser.cascade_succ (k : Fin 12) :
    d.cascade cfg v (k.val + 1) = cascadeStage cfg d.stages (d.cascade cfg v k.val) k := by
  have hplace : ∀ k : Fin 12, idx12[k.val]? = some k := by decide
  rw [Diffuser.cascade, List.take_add_one, hplace, List.foldl_append]
  rfl

/-- From place `m` to place `n` the cascade changes no stage but those between. -/
theorem Diffuser.cascade_stage_eq (j : Fin 12) {m n : Nat} (hmn : m ≤ n) (hn : n ≤ 12) (hj : j.val < m ∨ n ≤ j.val) :
    (d.cascade cfg v n).2[j] = (d.cascade cfg v m).2[j] := by
  induction n, hmn using Nat.le_induction with
  | base => rfl
  | succ n hmn ih =>
    have hne : j ≠ ⟨n, hn⟩ := Fin.ne_of_val_ne (show j.val ≠ n by omega)
    rw [d.cascade_succ cfg v ⟨n, hn⟩, cascadeStage_stage_ne cfg _ _ hne]
    exact ih (by omega) (by omega)

/-- A place not yet passed holds the stage as it was. -/
theorem Diffuser.cascade_stage_self (k : Fin 12) : (d.cascade cfg v k.val).2[k] = d.stage[k] :=
  d.cascade_stage_eq cfg v k k.val.zero_le k.isLt.le (.inr le_rfl)

/-- The stage that the step leaves at place `k`, through the one place that can change it. -/
theorem diffStep_stage (k : Fin 12) :
    (diffStep cfg d v).2.stage[k] = (cascadeStage cfg d.stages (d.cascade cfg v k.val) k).2[k] := by
  rw [diffStep_eq_cascade, ← d.cascade_succ]
  exact d.cascade_stage_eq cfg v k k.isLt le_rfl (.inl k.val.lt_succ_self)

variable {d}

/-- A stage below `STAGES` steps from its own state with the sample of the stage before. -/
theorem cascade_of_lt {k : Fin 12} (h : k.val < d.stages) :
    (d.cascade cfg v (k.val + 1)).1 = (mapStep cfg d.stage[k] (d.cascade cfg v k.val).1).1 ∧
    (diffStep cfg d v).2.stage[k] = (mapStep cfg d.stage[k] (d.cascade cfg v k.val).1).2 := by
  rw [diffStep_stage, d.cascade_succ, cascadeStage_of_lt cfg _ h, d.cascade_stage_self, vec_set_get,
    if_pos rfl]
  exact ⟨rfl, rfl⟩

/-- A stage at `STAGES` or above passes the sample on and keeps its state. -/
theorem cascade_of_le {k : Fin 12} (h : d.stages ≤ k.val) :
    (d.cascade cfg v (k.val + 1)).1 = (d.cascade cfg v k.val).1 ∧ (diffStep cfg d v).2.stage[k] = d.stage[k] := by
  rw [diffStep_stage, d.cascade_succ, cascadeStage_of_le cfg _ h]
  exact ⟨rfl, d.cascade_stage_self cfg v k⟩

theorem diffStep_of_no_stage (h : d.stages = 0) : diffStep cfg d v = (v, d) := by
  have hpass (k : Fin 12) : cascadeStage cfg d.stages (v, d.stage) k = (v, d.stage) :=
    cascadeStage_of_le cfg _ (h.trans_le k.val.zero_le)
  rw [diffStep, List.foldl_fixed' hpass]

end

/-! ## The frame of the step and of the clear (R234, R235) -/

theorem State.map_setDiff (s : State) (r : DiffRef) (d : Diffuser) (k : Fin 12) :
    (s.setDiff r d).map ⟨r, k⟩ = d.stage[k] := by rw [State.map, State.diff_setDiff]

section
variable (s : State) (r : DiffRef)

/-- A diffuser with new stages alone touches no register and no `SEEDV` of its own. -/
theorem untouched_setDiff_stage (d : Diffuser) {K B : Fin 12 → Nat → Prop}
    (hreg : ∀ n, diffReg d n = diffReg (s.diff r) n) (hseedV : d.seedV = (s.diff r).seedV)
    (hK : ∀ k : Fin 12, ∀ n, ¬ K k n → mapReg d.stage[k] n = mapReg (s.diff r).stage[k] n)
    (hB : ∀ k : Fin 12, ∀ i, ¬ B k i → memRead d.stage[k].core.buf i = memRead (s.diff r).stage[k].core.buf i) :
    Untouched s (s.setDiff r d) (fun q n => ∃ k, q = .map ⟨r, k⟩ ∧ K k n)
      (fun q m i => ∃ k, q = .map ⟨r, k⟩ ∧ m = 0 ∧ B k i) :=
  (untouched_setDiff s r d (P := fun _ => False) (Q := fun _ => False) (fun n _ => hreg n) hK
    (fun _ _ => by rw [hseedV]) hB).mono (fun _ _ h => h.resolve_left And.right)
    fun _ _ _ h => h.resolve_left fun ⟨_, _, hfalse⟩ => hfalse

/-- R235: what a stepped stage shows changed: its phase, count, taps and cursor, and the one word written. -/
theorem untouched_setDiff_diffStep (v : F) :
    Untouched s (s.setDiff r (diffStep Config.chip (s.diff r) v).2)
      (fun q n => ∃ k : Fin 12, q = .map ⟨r, k⟩ ∧ k.val < (s.diff r).stages ∧ 5 ≤ n ∧ n ≤ 11)
      (fun q m i => ∃ k : Fin 12, q = .map ⟨r, k⟩ ∧ m = 0 ∧ k.val < (s.diff r).stages ∧
        i = (s.diff r).stage[k].core.widx) := by
  refine untouched_setDiff_stage s r _ (fun _ => rfl) rfl (fun k n hn => ?_) fun k i hi => ?_ <;>
    obtain hk | hk := lt_or_ge k.val (s.diff r).stages
  · rw [(cascade_of_lt _ _ hk).2, mapReg_mapStep _ _ _ fun h => hn ⟨hk, h⟩]
  · rw [(cascade_of_le _ _ hk).2]
  · rw [(cascade_of_lt _ _ hk).2, mapStep_buf, memRead_memWrite_ne _ _ fun h => hi ⟨hk, h⟩]
  · rw [(cascade_of_le _ _ hk).2]

theorem Diffuser.clear_stage (d : Diffuser) (k : Fin 12) : d.clear.stage[k] = d.stage[k].clear := by
  rw [Diffuser.clear, getElem_vecMap]

theorem untouched_setDiff_clear :
    Untouched s (s.setDiff r (s.diff r).clear) noReg (fun q m i => ∃ k, q = .map ⟨r, k⟩ ∧ m = 0 ∧ i < 19200) := by
  refine (untouched_setDiff_stage s r (s.diff r).clear (K := fun _ _ => False) (fun _ => rfl) rfl (fun k n _ => ?_)
    fun k i hi => ?_).mono (fun _ _ ⟨_, _, h⟩ => h) fun _ _ _ => id
  · rw [Diffuser.clear_stage]
    rfl
  · rw [Diffuser.clear_stage]
    exact memRead_memClear_of_le _ (not_lt.1 hi)

/-- R234: a cleared word of a stage reads `+0`. -/
theorem readMem_setDiff_clear {k : Fin 12} (hwf : Memory.wf (s.diff r).stage[k].core.buf = true) {i : Nat}
    (hi : i < Config.apCap) : readMem (s.setDiff r (s.diff r).clear) (.map ⟨r, k⟩) 0 i = some 0#32 := by
  rw [readMem_eq, unitMem, State.map_setDiff, Diffuser.clear_stage]
  simp only [onlyMem, if_true, shownMem, hi]
  exact congrArg some ((memRead_memClear hwf _ _).trans (if_pos hi))

end

/-- Settles O36: the samples between the stages are those of the cascade; the clear leaves `+0`. -/
theorem diffuserStep : Obligations.DiffuserStep := by
  unfold Obligations.DiffuserStep
  intro s u v r hp hu d
  have hport (e : Diffuser) : (s.setDiff r e).port = .A := (s.setDiff_port r e).trans hp
  refine ⟨⟨_, exec_dfStep hp hu v, ?_⟩, _, exec_dfClr hp hu, fun k hwf i hi => readMem_setDiff_clear s r hwf hi,
    untouched_setDiff_clear s r⟩
  rw [State.diff_setRes, State.diff_setDiff, resA_setRes (hport _)]
  refine ⟨⟨fun n => (d.cascade Config.chip v n).1, rfl, rfl, fun k => ⟨cascade_of_lt _ v, cascade_of_le _ v⟩⟩,
    fun h => ?_, ?_⟩
  · rw [diffStep_of_no_stage _ v h]
    exact ⟨rfl, rfl⟩
  · refine ((untouched_setDiff_diffStep s r v).setRes_A_of_mem (hport _) _).mono
      (fun _ _ => Or.imp_left fun ⟨k, hq, hk, hn⟩ => ⟨k, hk, hq, hn⟩)
      fun _ _ _ ⟨k, hq, hm, hk, hi⟩ => ⟨k, hk, hq, hm, hi⟩

/-! ## The settings that no random value enters (R224, R226, R231, R232) -/

/-- What a command with one operand check does: its effect where the check passes, the fault where it fails. -/
theorem checked_effect {s t : State} {o : Out} {ok : Bool} {c : FaultCause} {Q : Prop} {E : State → Prop}
    (ho : o = check ok c s (.next t)) (hok : ok = true ↔ Q) (ht : E t) :
    (Q → ∃ t, o = .next t ∧ E t) ∧ (¬ Q → o = .next (s.raise c)) := by
  subst ho
  refine ⟨fun h => ?_, fun h => ?_⟩
  · rw [hok.2 h, check_true]
    exact ⟨t, rfl, ht⟩
  · rw [Bool.eq_false_iff.2 (mt hok.1 h), check_false]

theorem stagesOk_iff {n : Nat} : stagesOk n = true ↔ n ≤ 12 := decide_eq_true_iff

/-- From `s` to `t` the stages of a diffuser are all changed by `f`, which shows in its registers `P` and theirs `K`. -/
def SetsStages (s : State) (r : DiffRef) (f : Allpass → Allpass) (P K : Nat → Prop) (t : State) : Prop :=
  (∀ k : Fin 12, (t.diff r).stage[k] = f (s.diff r).stage[k]) ∧
  Untouched s t (fun q n => (q = .diff r ∧ P n) ∨ ∃ k, q = .map ⟨r, k⟩ ∧ K n) noMem

section
variable {s : State} {r : DiffRef} {d : Diffuser} {f : Allpass → Allpass} {P K : Nat → Prop}

theorem setsStages_setDiff (hstage : ∀ k : Fin 12, d.stage[k] = f (s.diff r).stage[k])
    (hseedV : d.seedV = (s.diff r).seedV) (hP : ∀ n, ¬ P n → diffReg d n = diffReg (s.diff r) n)
    (hK : ∀ a n, ¬ K n → mapReg (f a) n = mapReg a n) (hbuf : ∀ a, (f a).core.buf = a.core.buf) :
    SetsStages s r f P K (s.setDiff r d) := by
  refine ⟨by rwa [State.diff_setDiff], ?_⟩
  refine (untouched_setDiff s r d (K := fun _ => K) (Q := fun _ => False) (B := fun _ _ => False) hP
    (fun k n hn => ?_) (fun _ _ => by rw [hseedV]) fun k _ _ => ?_).mono (fun _ _ => id) fun _ _ _ h => ?_
  · rw [hstage, hK _ _ hn]
  · rw [hstage, hbuf]
  · obtain ⟨-, -, hfalse⟩ | ⟨-, -, -, hfalse⟩ := h <;> exact hfalse

end

section
variable (d : Diffuser) {n : Nat}

theorem diffReg_setStages (m : Nat) (hn : n ≠ 0) : diffReg (d.setStages m) n = diffReg d n := by
  match n with
  | 0 => exact absurd rfl hn
  | 1 | 2 | 3 | 4 | 5 | 6 | 7 | _ + 8 => rfl

theorem diffReg_setFb (g : F) (hn : n ≠ 2) : diffReg (d.setFb g) n = diffReg d n := by
  match n with
  | 2 => exact absurd rfl hn
  | 0 | 1 | 3 | 4 | 5 | 6 | 7 | _ + 8 => rfl

/-- The two flags share register 7. -/
theorem diffReg_withFlags (b : BitVec 2) (v : Vector Allpass 12) (hn : n ≠ 7) :
    diffReg { d with flags := b, stage := v } n = diffReg d n := by
  match n with
  | 7 => exact absurd rfl hn
  | 0 | 1 | 2 | 3 | 4 | 5 | 6 | _ + 8 => rfl

end

section
variable (s : State) (r : DiffRef)

theorem setsStages_setFb (g : F) :
    SetsStages s r (·.setFb g) (· = 2) (· = 1) (s.setDiff r ((s.diff r).setFb g)) :=
  setsStages_setDiff (fun k => getElem_vecMap _ _ k) rfl (fun _ => diffReg_setFb _ g)
    (fun a _ => mapReg_setFb a g) fun _ => rfl

theorem setsStages_setInterp (b : Bool) :
    SetsStages s r (·.setInterp b) (· = 7) (· = 4) (s.setDiff r ((s.diff r).setInterp b)) :=
  setsStages_setDiff (fun k => getElem_vecMap _ _ k) rfl (fun _ => diffReg_withFlags _ _ _)
    (fun a _ => mapReg_withFlags a _) fun _ => rfl

theorem setsStages_setModEn (b : Bool) :
    SetsStages s r (·.setModEn b) (· = 7) (· = 4) (s.setDiff r ((s.diff r).setModEn b)) :=
  setsStages_setDiff (fun k => getElem_vecMap _ _ k) rfl (fun _ => diffReg_withFlags _ _ _)
    (fun a _ => mapReg_withFlags a _) fun _ => rfl

theorem untouched_setDiff_setStages (n : Nat) :
    Untouched s (s.setDiff r ((s.diff r).setStages n)) (fun q n => q = .diff r ∧ n = 0) noMem :=
  have hsets : SetsStages s r id (· = 0) (fun _ => False) (s.setDiff r ((s.diff r).setStages n)) :=
    setsStages_setDiff (fun _ => rfl) rfl (fun _ => diffReg_setStages _ n) (fun _ _ _ => rfl) fun _ => rfl
  hsets.2.mono (fun _ _ h => h.resolve_right fun ⟨_, _, hfalse⟩ => hfalse) fun _ _ _ => id

end

/-- Settles O34: each setting is one update of the diffuser under one check; feedback and flags are the same update of every
stage. -/
theorem diffuserSettings : Obligations.DiffuserSettings := by
  unfold Obligations.DiffuserSettings
  intro s u v r hp hu d
  have hself (e : Diffuser) : (s.setDiff r e).diff r = e := s.diff_setDiff r e
  obtain ⟨hstages, hstages'⟩ := checked_effect
    (E := fun t => t.diff r = d.setStages v.toNat ∧ Untouched s t (fun q n => q = .diff r ∧ n = 0) noMem)
    (exec_dfSetStages hp hu v) stagesOk_iff ⟨hself _, untouched_setDiff_setStages s r v.toNat⟩
  obtain ⟨hfb, hfb'⟩ := checked_effect
    (E := fun t => (t.diff r).fb = v ∧ SetsStages s r (·.setFb v) (· = 2) (· = 1) t)
    (exec_dfSetFb hp hu v) Iff.rfl ⟨congrArg Diffuser.fb (hself _), setsStages_setFb s r v⟩
  obtain ⟨hinterp, hinterp'⟩ := checked_effect
    (E := fun t => (t.diff r).flags = putBit d.flags 0 (boolOf v) ∧
      SetsStages s r (·.setInterp (boolOf v)) (· = 7) (· = 4) t)
    (exec_dfSetInterp hp hu v) boolOk_iff ⟨congrArg Diffuser.flags (hself _), setsStages_setInterp s r (boolOf v)⟩
  obtain ⟨hmodEn, hmodEn'⟩ := checked_effect
    (E := fun t => (t.diff r).flags = putBit d.flags 1 (boolOf v) ∧
      SetsStages s r (·.setModEn (boolOf v)) (· = 7) (· = 4) t)
    (exec_dfSetModEn hp hu v) boolOk_iff ⟨congrArg Diffuser.flags (hself _), setsStages_setModEn s r (boolOf v)⟩
  refine ⟨hstages, fun h => hstages' h.not_ge, hfb, fun h => hfb' (Bool.eq_false_iff.1 h), fun h => ?_,
    fun h => ⟨hinterp' h.not_ge, hmodEn' h.not_ge⟩⟩
  rw [← boolOf_eq h]
  exact ⟨hinterp h, hmodEn h⟩

/-! ## The settings that derive all 12 stages again (R223, R225, R227 to R230) -/

section
variable (cfg : Config.Params) (d : Diffuser)

/-- R223: `DIFF_update` writes `SEEDV` and the stages alone. -/
theorem Diffuser.exists_update_eq : ∃ m v, d.update cfg = { d with seedV := m, stage := v } :=
  ⟨(d.update cfg).seedV, (d.update cfg).stage, by simp only [Diffuser.update, Diffuser.deriveStages, Diffuser.draw]⟩

theorem diffReg_update (n : Nat) : diffReg (d.update cfg) n = diffReg d n := by
  obtain ⟨m, v, he⟩ := d.exists_update_eq cfg
  rw [he]
  rfl

theorem Diffuser.update_stage (k : Fin 12) :
    (d.update cfg).stage[k] = deriveStage cfg (d.draw cfg) k.val d.stage[k] := by
  rw [Diffuser.update, Diffuser.deriveStages_stage, Diffuser.draw_stage]

/-- R223: a derivation gives a stage its three settings and their taps alone. -/
theorem exists_deriveStage_eq (k : Nat) (a : Allpass) : ∃ (n : Nat) (x y : F) (t : Taps),
    deriveStage cfg d k a = { a with core := { a.core with dly := n, modA := x, modR := y, taps := t } } :=
  ⟨_, _, _, _, by rw [deriveStage, ModDelay.retap]⟩

theorem mapReg_deriveStage (k : Nat) (a : Allpass) {n : Nat} (hn : ¬ (n = 0 ∨ n = 2 ∨ n = 3 ∨ 7 ≤ n ∧ n ≤ 10)) :
    mapReg (deriveStage cfg d k a) n = mapReg a n := by
  obtain ⟨m, x, y, t, he⟩ := exists_deriveStage_eq cfg d k a
  rw [he]
  match n with
  | 0 | 2 | 3 | 7 | 8 | 9 | 10 => exact absurd (by decide) hn
  | 1 | 4 | 5 | 6 | 11 | _ + 12 => rfl

theorem deriveStage_sameSignal (k : Nat) (a : Allpass) : a.core.SameSignal (deriveStage cfg d k a).core := by
  obtain ⟨m, x, y, t, he⟩ := exists_deriveStage_eq cfg d k a
  rw [he]
  exact ⟨rfl, rfl, rfl, rfl⟩

theorem Diffuser.sameSignal_update : d.SameSignal (d.update cfg) := fun k => by
  rw [Diffuser.update_stage]
  exact deriveStage_sameSignal _ _ _ _

end

/-- From `s` to `t` a diffuser takes the registers of `d`, of which number `n` is new, and all that derives from them. -/
def Rederives (s : State) (r : DiffRef) (n : Nat) (d : Diffuser) (t : State) : Prop :=
  (t.diff r).stages = d.stages ∧ (t.diff r).dly = d.dly ∧ (t.diff r).fb = d.fb ∧ (t.diff r).modA = d.modA ∧
  (t.diff r).modR = d.modR ∧ (t.diff r).seed = d.seed ∧ (t.diff r).xseed = d.xseed ∧ (t.diff r).flags = d.flags ∧
  (t.diff r).Derived Config.chip ∧ d.SameSignal (t.diff r) ∧
  Untouched s t (fun q m => (q = .diff r ∧ m = n) ∨ (∃ k, q = .map ⟨r, k⟩ ∧ (m = 0 ∨ m = 2 ∨ m = 3 ∨ 7 ≤ m ∧ m ≤ 10)))
    (fun q m _ => q = .diff r ∧ m = 1)

section
variable {s : State} {r : DiffRef} {d : Diffuser} {n : Nat}

theorem untouched_setDiff_update (hstage : d.stage = (s.diff r).stage)
    (hreg : ∀ m, m ≠ n → diffReg d m = diffReg (s.diff r) m) :
    Untouched s (s.setDiff r (d.update Config.chip))
      (fun q m => (q = .diff r ∧ m = n) ∨ ∃ k, q = .map ⟨r, k⟩ ∧ (m = 0 ∨ m = 2 ∨ m = 3 ∨ 7 ≤ m ∧ m ≤ 10))
      (fun q m _ => q = .diff r ∧ m = 1) := by
  refine (untouched_setDiff s r _ (P := (· = n)) (K := fun _ m => m = 0 ∨ m = 2 ∨ m = 3 ∨ 7 ≤ m ∧ m ≤ 10)
    (Q := fun _ => True) (B := fun _ _ => False) (fun m hm => ?_) (fun k m hm => ?_) (fun i hi => absurd trivial hi)
    fun k i _ => ?_).mono (fun _ _ => id) fun _ _ _ h => ?_
  · exact (diffReg_update _ d m).trans (hreg m hm)
  · rw [Diffuser.update_stage, mapReg_deriveStage _ _ _ _ hm, hstage]
  · rw [Diffuser.update_stage, deriveStage_buf, hstage]
  · obtain ⟨hq, hm, -⟩ | ⟨-, -, -, hfalse⟩ := h
    · exact ⟨hq, hm⟩
    · exact hfalse.elim

/-- R223: the update after a setting of register `n`. -/
theorem rederives_update (hwf : Memory.wf d.seedV = true) (hstage : d.stage = (s.diff r).stage)
    (hreg : ∀ m, m ≠ n → diffReg d m = diffReg (s.diff r) m) :
    Rederives s r n d (s.setDiff r (d.update Config.chip)) := by
  have hframe := untouched_setDiff_update hstage hreg
  have hderived := Diffuser.derived_update Config.chip hwf
  have hsignal := d.sameSignal_update Config.chip
  obtain ⟨m, v, he⟩ := d.exists_update_eq Config.chip
  rw [he] at hframe hderived hsignal ⊢
  unfold Rederives
  rw [State.diff_setDiff]
  exact ⟨rfl, rfl, rfl, rfl, rfl, rfl, rfl, rfl, hderived, hsignal, hframe⟩

end

section
variable (d : Diffuser) {n : Nat}

theorem diffReg_withDly (m : Nat) (hn : n ≠ 1) : diffReg { d with dly := m } n = diffReg d n := by
  match n with
  | 1 => exact absurd rfl hn
  | 0 | 2 | 3 | 4 | 5 | 6 | 7 | _ + 8 => rfl

theorem diffReg_withModA (a : F) (hn : n ≠ 3) : diffReg { d with modA := a } n = diffReg d n := by
  match n with
  | 3 => exact absurd rfl hn
  | 0 | 1 | 2 | 4 | 5 | 6 | 7 | _ + 8 => rfl

theorem diffReg_withModR (f : F) (hn : n ≠ 4) : diffReg { d with modR := f } n = diffReg d n := by
  match n with
  | 4 => exact absurd rfl hn
  | 0 | 1 | 2 | 3 | 5 | 6 | 7 | _ + 8 => rfl

theorem diffReg_withSeed (w : Word) (hn : n ≠ 5) : diffReg { d with seed := w } n = diffReg d n := by
  match n with
  | 5 => exact absurd rfl hn
  | 0 | 1 | 2 | 3 | 4 | 6 | 7 | _ + 8 => rfl

theorem diffReg_withXseed (c : F) (hn : n ≠ 6) : diffReg { d with xseed := c } n = diffReg d n := by
  match n with
  | 6 => exact absurd rfl hn
  | 0 | 1 | 2 | 3 | 4 | 5 | 7 | _ + 8 => rfl

end

/-- The legal rates of a diffuser are those from -0.5 to 0.5 (R228). -/
theorem diffModROk_iff {f : F} : diffModROk f = true ↔ fle 0xBF000000#32 f = true ∧ fle f 0x3F000000#32 = true :=
  Bool.and_eq_true_iff

/-- Settles O35: each setting stores one register under its check and derives `SEEDV` and the stages again. -/
theorem diffuserDerivation : Obligations.DiffuserDerivation := by
  unfold Obligations.DiffuserDerivation
  intro s u v r hp hu hwf derives fails d
  obtain ⟨hdly, hdly'⟩ := checked_effect (E := Rederives s r 1 { d with dly := v.toNat })
    (exec_dfSetDly hp hu v) delayOk_iff (rederives_update hwf rfl fun _ => diffReg_withDly d _)
  obtain ⟨hmodA, hmodA'⟩ := checked_effect (E := Rederives s r 3 { d with modA := v })
    (exec_dfSetModA hp hu v) modAOk_iff (rederives_update hwf rfl fun _ => diffReg_withModA d v)
  obtain ⟨hmodR, hmodR'⟩ := checked_effect (E := Rederives s r 4 { d with modR := v })
    (exec_dfSetModR hp hu v) diffModROk_iff (rederives_update hwf rfl fun _ => diffReg_withModR d v)
  obtain ⟨hxseed, hxseed'⟩ := checked_effect (E := Rederives s r 6 { d with xseed := v })
    (exec_dfSetX hp hu v) Bool.and_eq_true_iff (rederives_update hwf rfl fun _ => diffReg_withXseed d v)
  have hseed : Rederives s r 5 { d with seed := v } _ := rederives_update hwf rfl fun _ => diffReg_withSeed d v
  exact ⟨hdly, hdly', hmodA, hmodA', hmodR, hmodR', ⟨_, exec_dfSetSeed hp hu v, hseed⟩, hxseed, hxseed'⟩

end Sys2Proof.Machine
end

section
/-! The modulated delay (spec/45_moddelay.md): what each of its five commands does and leaves untouched (R252 to R256,
R260), and how often its phase and taps are updated (R197, R260, R441). -/

namespace Sys2Proof.Machine

/-! ## The commands on a unit that exists (R252 to R256) -/

section
variable {s : State} {u : UnitAddr} {r : MdlyRef} (hp : s.port = .A) (hu : unitOf u = some (.mdly r))
include hp hu

theorem exec_mdSetDly (v : Word) :
    exec (.mdSetDly u v) s =
      check (delayOk Config.dlCap v.toNat) .cfgErr s (.next (s.setMdly r ((s.mdly r).setDly Config.chip v.toNat))) :=
  onMdly_eq hp hu _

theorem exec_mdSetModA (v : Word) :
    exec (.mdSetModA u v) s =
      check (modAOk Config.dlCap v) .cfgErr s (.next (s.setMdly r ((s.mdly r).setModA Config.chip v))) :=
  onMdly_eq hp hu _

theorem exec_mdSetModR (v : Word) :
    exec (.mdSetModR u v) s = check (modROk v) .cfgErr s (.next (s.setMdly r ((s.mdly r).setModR v))) :=
  onMdly_eq hp hu _

theorem exec_mdStep (v : Word) :
    exec (.mdStep u v) s =
      .next ((s.setMdly r (mdlyStep Config.chip (s.mdly r) v).2).setRes (mdlyStep Config.chip (s.mdly r) v).1) :=
  onMdly_eq hp hu _

theorem exec_mdClr : exec (.mdClr u) s = .next (s.setMdly r ((s.mdly r).clear Config.dlCap)) := onMdly_eq hp hu _

end

/-! ## The update and the step (R197, R260) -/

section
variable (cfg : Config.Params) (u : ModDelay)

/-- The delay once a step has written its sample and made the update where it is due; the taps read from it. -/
def ModDelay.ready (v : F) : ModDelay := ({ u with buf := memWrite u.buf u.widx v }).tick cfg

theorem ModDelay.ready_of_lt (h : u.cnt < 8) (v : F) :
    u.ready cfg v = { u with buf := memWrite u.buf u.widx v } := if_neg h.not_ge

/-- R197: the update due at a count of 8. -/
theorem ModDelay.ready_of_le (h : 8 ≤ u.cnt) (v : F) :
    u.ready cfg v = { u with
      phase := nextPhase u.phase u.modR
      cnt := 0
      taps := tapCalc cfg u.dly u.modA (nextPhase u.phase u.modR)
      buf := memWrite u.buf u.widx v } := if_pos h

/-- Neither the write nor the update reaches the three settings. -/
theorem ModDelay.ready_settings (v : F) :
    (u.ready cfg v).dly = u.dly ∧ (u.ready cfg v).modA = u.modA ∧ (u.ready cfg v).modR = u.modR := by
  obtain h | h := lt_or_ge u.cnt 8
  · rw [u.ready_of_lt cfg h]
    exact ⟨rfl, rfl, rfl⟩
  · rw [u.ready_of_le cfg h]
    exact ⟨rfl, rfl, rfl⟩

theorem ModDelay.ready_widx (v : F) : (u.ready cfg v).widx = u.widx := ModDelay.tick_widx cfg _

theorem ModDelay.ready_buf (v : F) : (u.ready cfg v).buf = memWrite u.buf u.widx v := ModDelay.tick_buf cfg _

/-- R260: both taps are read with the cursor at the word just written. -/
theorem mdlyStep_fst (v : F) :
    (mdlyStep cfg u v).1 =
      fadd
        (fmul (memTap (memWrite u.buf u.widx v) u.widx (u.ready cfg v).taps.delayA Config.dlCap)
          (u.ready cfg v).taps.gainA)
        (fmul (memTap (memWrite u.buf u.widx v) u.widx (u.ready cfg v).taps.delayB Config.dlCap)
          (u.ready cfg v).taps.gainB) := by
  rw [← u.ready_buf cfg v, ← u.ready_widx cfg v]
  rfl

theorem mdlyStep_snd (v : F) :
    (mdlyStep cfg u v).2 = { u.ready cfg v with
      cnt := (u.ready cfg v).cnt + 1, widx := advance u.widx Config.dlCap } := by
  rw [← mdlyStep_widx cfg u v]
  rfl

end

/-! ## The registers that a command shows in (R31) -/

section
variable (cfg : Config.Params) (u : ModDelay) {n : Nat}

theorem mdlyReg_withDlyTaps (d : Nat) (t : Taps) (hn : ¬ (n = 0 ∨ 7 ≤ n ∧ n ≤ 10)) :
    mdlyReg { u with dly := d, taps := t } n = mdlyReg u n := by
  match n with
  | 0 | 7 | 8 | 9 | 10 => exact absurd (by decide) hn
  | 1 | 2 | 3 | 4 | 5 | 6 | 11 | _ + 12 => rfl

theorem mdlyReg_setDly (d : Nat) (hn : ¬ (n = 0 ∨ 7 ≤ n ∧ n ≤ 10)) : mdlyReg (u.setDly cfg d) n = mdlyReg u n :=
  mdlyReg_withDlyTaps u d _ hn

theorem mdlyReg_withModATaps (a : F) (t : Taps) (hn : ¬ (n = 2 ∨ 7 ≤ n ∧ n ≤ 10)) :
    mdlyReg { u with modA := a, taps := t } n = mdlyReg u n := by
  match n with
  | 2 | 7 | 8 | 9 | 10 => exact absurd (by decide) hn
  | 0 | 1 | 3 | 4 | 5 | 6 | 11 | _ + 12 => rfl

theorem mdlyReg_setModA (a : F) (hn : ¬ (n = 2 ∨ 7 ≤ n ∧ n ≤ 10)) : mdlyReg (u.setModA cfg a) n = mdlyReg u n :=
  mdlyReg_withModATaps u a _ hn

theorem mdlyReg_setModR (f : F) (hn : n ≠ 3) : mdlyReg (u.setModR f) n = mdlyReg u n := by
  match n with
  | 3 => exact absurd rfl hn
  | 0 | 1 | 2 | 4 | 5 | 6 | 7 | 8 | 9 | 10 | 11 | _ + 12 => rfl

/-- A delay with the three settings unchanged differs in the registers 5 to 11 alone. -/
theorem mdlyReg_of_settings {w : ModDelay} (hdly : w.dly = u.dly) (hmodA : w.modA = u.modA) (hmodR : w.modR = u.modR)
    (hn : ¬ (5 ≤ n ∧ n ≤ 11)) : mdlyReg w n = mdlyReg u n := by
  match n with
  | 0 => exact congrArg (some ∘ intReg) hdly
  | 2 => exact congrArg some hmodA
  | 3 => exact congrArg some hmodR
  | 5 | 6 | 7 | 8 | 9 | 10 | 11 => exact absurd (by decide) hn
  | 1 | 4 | _ + 12 => rfl

theorem mdlyStep_settings (v : F) :
    (mdlyStep cfg u v).2.dly = u.dly ∧ (mdlyStep cfg u v).2.modA = u.modA ∧ (mdlyStep cfg u v).2.modR = u.modR := by
  rw [mdlyStep_snd]
  exact u.ready_settings cfg v

theorem mdlyReg_mdlyStep (v : F) (hn : ¬ (5 ≤ n ∧ n ≤ 11)) : mdlyReg (mdlyStep cfg u v).2 n = mdlyReg u n := by
  obtain ⟨hdly, hmodA, hmodR⟩ := mdlyStep_settings cfg u v
  exact mdlyReg_of_settings u hdly hmodA hmodR hn

end

/-! ## The frame of the commands -/

section
variable (s : State) (r : MdlyRef)

/-- The delay is `f` in the state `t`, and from `s` to `t` nothing else than its registers `P` has changed. -/
def SetsMdly (f : ModDelay) (P : Nat → Prop) (t : State) : Prop :=
  t.mdly r = f ∧ Untouched s t (fun q n => q = .mdly r ∧ P n) noMem

/-- A unit with its buffer as it was touches the registers it differs in. -/
theorem setsMdly_setMdly {f : ModDelay} {P : Nat → Prop} (hbuf : f.buf = (s.mdly r).buf)
    (hP : ∀ n, ¬ P n → mdlyReg f n = mdlyReg (s.mdly r) n) : SetsMdly s r f P (s.setMdly r f) :=
  ⟨s.mdly_setMdly r f, (untouched_setMdly s r f (Q := fun _ => False) hP fun _ _ => by rw [hbuf]).mono
    (fun _ _ => id) fun _ _ _ ⟨_, _, hfalse⟩ => hfalse⟩

theorem untouched_setMdly_mdlyStep (v : F) :
    Untouched s (s.setMdly r (mdlyStep Config.chip (s.mdly r) v).2) (fun q n => q = .mdly r ∧ 5 ≤ n ∧ n ≤ 11)
      (fun q m i => q = .mdly r ∧ m = 0 ∧ i = (s.mdly r).widx) :=
  untouched_setMdly s r _ (fun _ => mdlyReg_mdlyStep _ _ _) fun i hi => by
    rw [mdlyStep_buf, memRead_memWrite_ne _ _ hi]

theorem untouched_setMdly_clear :
    Untouched s (s.setMdly r ((s.mdly r).clear Config.dlCap)) noReg
      (fun q m i => q = .mdly r ∧ m = 0 ∧ i < Config.dlCap) :=
  (untouched_setMdly s r ((s.mdly r).clear Config.dlCap) (P := fun _ => False) (fun _ _ => rfl)
    fun _ hi => memRead_memClear_of_le _ (not_lt.1 hi)).mono (fun _ _ h => h.2) fun _ _ _ => id

/-- R256: a cleared word reads `+0`. -/
theorem readMem_setMdly_clear (hwf : Memory.wf (s.mdly r).buf = true) {i : Nat} (hi : i < Config.dlCap) :
    readMem (s.setMdly r ((s.mdly r).clear Config.dlCap)) (.mdly r) 0 i = some 0#32 := by
  rw [readMem_eq, unitMem_setMdly_self]
  simp only [onlyMem, if_true, shownMem, hi]
  exact congrArg some ((memRead_memClear hwf _ _).trans (if_pos hi))

end

/-- Settles O37: a setting is one update of the unit under one check; the step writes one word, reads at the updated taps
and writes `RES[A]`; the clear leaves `+0`. -/
theorem delayCommands : Obligations.DelayCommands := by
  unfold Obligations.DelayCommands
  intro s u v r hp hu f
  have hport (g : ModDelay) : (s.setMdly r g).port = .A := (s.setMdly_port r g).trans hp
  obtain ⟨hdly, hdly'⟩ := checked_effect (exec_mdSetDly hp hu v) delayOk_iff
    (setsMdly_setMdly s r rfl fun _ => mdlyReg_setDly Config.chip f v.toNat)
  obtain ⟨hmodA, hmodA'⟩ := checked_effect (exec_mdSetModA hp hu v) modAOk_iff
    (setsMdly_setMdly s r rfl fun _ => mdlyReg_setModA Config.chip f v)
  obtain ⟨hmodR, hmodR'⟩ := checked_effect (exec_mdSetModR hp hu v) modROk_iff
    (setsMdly_setMdly s r rfl fun _ => mdlyReg_setModR f v)
  refine ⟨hdly, hdly', hmodA, hmodA', hmodR, hmodR', ⟨_, exec_mdStep hp hu v, ?_, ?_, ?_⟩,
    _, exec_mdClr hp hu, fun hwf i hi => readMem_setMdly_clear s r hwf hi, untouched_setMdly_clear s r⟩
  · rw [State.mdly_setRes, State.mdly_setMdly]
    exact mdlyStep_snd Config.chip f v
  · rw [resA_setRes (hport _)]
    exact mdlyStep_fst Config.chip f v
  · exact (untouched_setMdly_mdlyStep s r v).setRes_A_of_mem (hport _) _

/-! ## The updates over many samples (R197, R260, R441) -/

/-- `w` is the delay `u` after `k` updates: the settings of `u`, its phase advanced `k` times, and taps that are those of
the last update. -/
structure ModDelay.Advanced (cfg : Config.Params) (u : ModDelay) (k : Nat) (w : ModDelay) : Prop where
  dly : w.dly = u.dly
  modA : w.modA = u.modA
  modR : w.modR = u.modR
  phase : w.phase = (fun p => nextPhase p u.modR)^[k] u.phase
  taps : w.taps = if k = 0 then u.taps else tapCalc cfg u.dly u.modA ((fun p => nextPhase p u.modR)^[k] u.phase)

section
variable {cfg : Config.Params} {u w : ModDelay} {k : Nat}

theorem ModDelay.advanced_zero (cfg : Config.Params) (u : ModDelay) : u.Advanced cfg 0 u := ⟨rfl, rfl, rfl, rfl, rfl⟩

/-- A sample that finds `CNT` below 8 is counted and updates nothing. -/
theorem ModDelay.Advanced.step_of_lt (h : u.Advanced cfg k w) (hcnt : w.cnt < 8) (v : F) :
    u.Advanced cfg k (mdlyStep cfg w v).2 ∧ (mdlyStep cfg w v).2.cnt = w.cnt + 1 := by
  rw [mdlyStep_snd, w.ready_of_lt cfg hcnt]
  exact ⟨⟨h.dly, h.modA, h.modR, h.phase, h.taps⟩, rfl⟩

/-- A sample that finds `CNT` at 8 makes one update and is the first of the next 8. -/
theorem ModDelay.Advanced.step_of_le (h : u.Advanced cfg k w) (hcnt : 8 ≤ w.cnt) (v : F) :
    u.Advanced cfg (k + 1) (mdlyStep cfg w v).2 ∧ (mdlyStep cfg w v).2.cnt = 1 := by
  have hphase : nextPhase w.phase w.modR = (fun p => nextPhase p u.modR)^[k + 1] u.phase := by
    rw [Function.iterate_succ_apply', h.phase, h.modR]
  have htaps : tapCalc cfg w.dly w.modA (nextPhase w.phase w.modR) =
      tapCalc cfg u.dly u.modA ((fun p => nextPhase p u.modR)^[k + 1] u.phase) := by
    rw [hphase, h.dly, h.modA]
  rw [mdlyStep_snd, w.ready_of_le cfg hcnt]
  exact ⟨⟨h.dly, h.modA, h.modR, hphase, htaps.trans (if_neg k.succ_ne_zero).symm⟩, rfl⟩

end

/-- The updates that `n` samples make, the first of them where `CNT` has reached 8. -/
def ModDelay.updates (u : ModDelay) (n : Nat) : Nat := (u.cnt + n - 1) / 8

/-- R441: one update for every 8 samples counted. -/
theorem ModDelay.feed_advanced (cfg : Config.Params) {u : ModDelay} (hcnt : u.cnt ≤ 8) (vs : List F) :
    u.Advanced cfg (u.updates vs.length) (u.feed cfg vs) ∧
    (u.feed cfg vs).cnt = u.cnt + vs.length - 8 * u.updates vs.length := by
  induction vs using List.reverseRecOn with
  | nil =>
    have hzero : u.updates 0 = 0 := Nat.div_eq_of_lt (by omega)
    rw [List.length_nil, hzero]
    exact ⟨u.advanced_zero cfg, rfl⟩
  | append_singleton vs v ih =>
    obtain ⟨hadv, hfed⟩ := ih
    rw [ModDelay.feed_concat, List.length_append, List.length_singleton]
    obtain hlt | hge := lt_or_ge (u.feed cfg vs).cnt 8
    · have hsame : u.updates (vs.length + 1) = u.updates vs.length := by unfold ModDelay.updates at hfed ⊢; omega
      obtain ⟨hadv', hcnt'⟩ := hadv.step_of_lt hlt v
      rw [hsame, hcnt', hfed]
      exact ⟨hadv', by unfold ModDelay.updates; omega⟩
    · have hone : u.updates (vs.length + 1) = u.updates vs.length + 1 := by
        unfold ModDelay.updates at hfed ⊢; omega
      obtain ⟨hadv', hcnt'⟩ := hadv.step_of_le hge v
      rw [hone, hcnt']
      exact ⟨hadv', by unfold ModDelay.updates at hfed ⊢; omega⟩

/-- Settles O31: the first two clauses are the cases of no update and of the first one. -/
theorem modulationPeriod : Obligations.ModulationPeriod := by
  unfold Obligations.ModulationPeriod
  intro cfg u vs hcnt
  obtain ⟨⟨-, -, -, hphase, htaps⟩, hfed⟩ := ModDelay.feed_advanced cfg hcnt vs
  refine ⟨fun hlen => ?_, fun hlen => ?_, hphase, htaps, hfed⟩
  · have hzero : u.updates vs.length = 0 := Nat.div_eq_of_lt (by omega)
    rw [hzero] at hphase htaps hfed
    exact ⟨hphase, htaps, hfed⟩
  · have hone : u.updates vs.length = 1 := Nat.div_eq_of_lt_le (by omega) (by omega)
    rw [hone] at hphase htaps hfed
    exact ⟨hphase, htaps, by omega⟩

end Sys2Proof.Machine
end

section
/-! The offsets of a multitap delay (spec/46_multitap.md R281). The rounded quotient `len / n` may lie above its exact value,
and a tap position may be all of `n`, so the product may pass `len`; but it stays below a binary32 value within half a
sample of `len` (`exists_spacing_bound`), and its floor is then at most `len`. -/

namespace Sys2Proof.Machine

/-! ## The legal operands (R274, R275) -/

theorem tapsOk_iff {n : Nat} : tapsOk n = true ↔ 1 ≤ n ∧ n ≤ 256 := by
  simp only [tapsOk, Bool.and_eq_true, decide_eq_true_eq]
  rfl

theorem lenOk_iff {n : Nat} : lenOk n = true ↔ 1 ≤ n ∧ n ≤ 383999 := by
  simp only [lenOk, Bool.and_eq_true, decide_eq_true_eq]
  rfl

/-! ## Quotients and fractions of binary32 -/

/-- A quotient by a positive value, between two values, is rounded to a value between them. -/
theorem inRange_fdiv {lo hi x y : F} (hlo : isFinite lo = true) (hhi : isFinite hi = true) (hx : isFinite x = true)
    (hy : isFinite y = true) (hpos : 0 < toUnits y) (hge : toUnits lo * toUnits y ≤ toUnits x * 2 ^ 149)
    (hle : toUnits x * 2 ^ 149 ≤ toUnits hi * toUnits y) : inRange lo hi (fdiv x y) = true := by
  have hsign : signBit y = false := by
    rw [← Bool.not_eq_true]
    intro hneg
    rw [toUnits, if_pos hneg] at hpos
    omega
  have hunits : toUnits y = magUnits y := by rw [toUnits, hsign]; rfl
  have hmag : 0 < magUnits y := by omega
  have hzero : isZero y = false := by
    rw [← Bool.not_eq_true]
    intro h0
    rw [magUnits_eq, eq_of_beq h0] at hmag
    exact absurd hmag (by decide)
  rw [fdiv_of_isFinite hx hy hzero]
  rw [hunits] at hge hle
  refine inRange_withSign hlo hhi hmag ?_ hge hle
  rw [hsign, Bool.bne_false, toUnits]
  split <;> push_cast <;> ring

/-- A number of 24 bits times a power of two is the units of a binary32 value, below the largest exponent. -/
theorem exists_toUnits_eq {t k : Nat} (ht : t ≤ 2 ^ 24) (hk : k ≤ 252) :
    ∃ z : F, isFinite z = true ∧ toUnits z = t * 2 ^ k := by
  obtain ⟨m, hm⟩ := exists_unitsOf_eq k ht
  have hinf : m < infBits := by
    rw [← unitsOf_lt_iff, hm, unitsOf_infBits]
    calc t * 2 ^ k ≤ 2 ^ 24 * 2 ^ 252 := Nat.mul_le_mul ht (Nat.pow_le_pow_right two_pos hk)
      _ < 2 ^ 277 := by decide +kernel
  have hlt : m < 2 ^ 31 := hinf.trans (by decide)
  refine ⟨withSign false m, ?_, ?_⟩
  · rw [isFinite_iff, magBits_withSign false hlt]
    exact hinf
  · rw [toUnits_withSign_false hlt, hm]
    push_cast
    rfl

/-! ## The spacing of the taps -/

/-- The fraction of `len / n` with a power of two between `2 n` and `4 n` below it, rounded up: it has 24 bits, and `n` times
it is within a half of `len`. -/
theorem exists_dyadic_bound {len n : Nat} (hn : 1 ≤ n ∧ n ≤ 256) (hlen : len ≤ 383999) :
    ∃ k t : Nat, k ≤ 10 ∧ t ≤ 2 ^ 24 ∧ len * 2 ^ k ≤ n * t ∧ 2 * (n * t) ≤ (2 * len + 1) * 2 ^ k := by
  obtain ⟨hn1, hn256⟩ := hn
  have hlog : n.log2 < 9 := (Nat.log2_lt (by omega)).2 (by omega)
  have hlow : 2 ^ n.log2 ≤ n := Nat.log2_self_le (by omega)
  have hhigh : n < 2 ^ (n.log2 + 1) := Nat.lt_log2_self
  generalize n.log2 = l at hlog hlow hhigh
  have hceil := Nat.div_add_mod (len * 2 ^ (l + 2) + (n - 1)) n
  have hrem := Nat.mod_lt (len * 2 ^ (l + 2) + (n - 1)) hn1
  refine ⟨l + 2, (len * 2 ^ (l + 2) + (n - 1)) / n, by omega, ?_, ?_, ?_⟩
  · refine Nat.div_le_of_le_mul ?_
    have hprod : len * 2 ^ (l + 2) ≤ 383999 * (4 * n) := Nat.mul_le_mul hlen (by rw [pow_add]; omega)
    omega
  · omega
  · have hpow : 2 * n ≤ 2 ^ (l + 2) := by rw [pow_succ]; omega
    rw [add_mul, mul_assoc 2 len]
    omega

/-- A binary32 value not below `len / n`, `n` times which is at most `len` and a half. -/
theorem exists_spacing_bound {len n : Nat} (hn : 1 ≤ n ∧ n ≤ 256) (hlen : len ≤ 383999) :
    ∃ z : F, isFinite z = true ∧ (len : Int) * 2 ^ 149 ≤ n * toUnits z ∧
      n * toUnits z ≤ (2 * len + 1 : Nat) * 2 ^ 148 := by
  obtain ⟨k, t, hk, ht, hlow, hhigh⟩ := exists_dyadic_bound hn hlen
  obtain ⟨z, hz, hzu⟩ := exists_toUnits_eq (k := 149 - k) ht (by omega)
  have hpow : 2 ^ 149 = 2 ^ k * 2 ^ (149 - k) := by rw [← pow_add]; congr 1; omega
  refine ⟨z, hz, ?_, ?_⟩ <;> rw [hzu] <;> norm_cast
  · calc len * 2 ^ 149 = len * 2 ^ k * 2 ^ (149 - k) := by rw [hpow, mul_assoc]
      _ ≤ n * t * 2 ^ (149 - k) := Nat.mul_le_mul_right _ hlow
      _ = n * (t * 2 ^ (149 - k)) := mul_assoc _ _ _
  · refine Nat.le_of_mul_le_mul_left (?_ : 2 * _ ≤ 2 * _) two_pos
    calc 2 * (n * (t * 2 ^ (149 - k))) = 2 * (n * t) * 2 ^ (149 - k) := by ring
      _ ≤ (2 * len + 1) * 2 ^ k * 2 ^ (149 - k) := Nat.mul_le_mul_right _ hhigh
      _ = 2 * ((2 * len + 1) * 2 ^ 148) := by rw [mul_assoc, ← hpow]; ring

/-- The spacing of the taps is not negative, and `n` times it is at most `len` and a half. -/
theorem tapSpacing_bounds {len n : Nat} (hn : 1 ≤ n ∧ n ≤ 256) (hlen : len ≤ 383999) :
    isFinite (fdiv (itof len) (itof n)) = true ∧ 0 ≤ toUnits (fdiv (itof len) (itof n)) ∧
    n * toUnits (fdiv (itof len) (itof n)) ≤ (2 * len + 1 : Nat) * 2 ^ 148 := by
  obtain ⟨z, hz, hlow, hhigh⟩ := exists_spacing_bound hn hlen
  obtain ⟨hlf, hlu⟩ := itof_exact (n := len) (by omega)
  obtain ⟨hnf, hnu⟩ := itof_exact (n := n) (by omega)
  have hrange : inRange fzero z (fdiv (itof len) (itof n)) = true := by
    refine inRange_fdiv (by decide) hz hlf hnf ?_ ?_ ?_
    · rw [hnu]; omega
    · rw [toUnits_fzero, hlu]; omega
    · rw [hlu, hnu]
      calc (len : Int) * 2 ^ 149 * 2 ^ 149 ≤ n * toUnits z * 2 ^ 149 := mul_le_mul_of_nonneg_right hlow (by decide)
        _ = toUnits z * (n * 2 ^ 149) := by ring
  obtain ⟨hqf, hq0, hqz⟩ := (inRange_iff (by decide) hz).1 hrange
  exact ⟨hqf, hq0, (mul_le_mul_of_nonneg_left hqz (Int.natCast_nonneg n)).trans hhigh⟩

/-- Settles O40: the product of position and spacing is rounded to at most `len` and a half, whose floor is `len`. -/
theorem multitapOffsets : Obligations.MultitapOffsets := by
  unfold Obligations.MultitapOffsets
  intro pos i taps len htaps hlen hi hpos
  rw [tapsOk_iff] at htaps
  rw [lenOk_iff] at hlen
  obtain ⟨hif, hiu⟩ := itof_exact (n := i) (by omega)
  obtain ⟨hjf, hju⟩ := itof_exact (n := i + 1) (by omega)
  obtain ⟨hpf, hp0, hp1⟩ := (inRange_iff hif hjf).1 hpos
  have hpos0 : 0 ≤ toUnits pos := by omega
  have hposn : toUnits pos ≤ taps * 2 ^ 149 := by omega
  obtain ⟨hqf, hq0, hq⟩ := tapSpacing_bounds htaps hlen.2
  obtain ⟨half, hhf, hhu⟩ := exists_toUnits_eq (t := 2 * len + 1) (k := 148) (by omega) (by decide)
  have hprod : inRange fzero half (fmul pos (fdiv (itof len) (itof taps))) = true := by
    refine inRange_fmul (by decide) hhf hpf hqf ?_ ?_
    · rw [toUnits_fzero, zero_mul]
      exact mul_nonneg hpos0 hq0
    · calc toUnits pos * toUnits (fdiv (itof len) (itof taps))
          ≤ taps * 2 ^ 149 * toUnits (fdiv (itof len) (itof taps)) := mul_le_mul_of_nonneg_right hposn hq0
        _ = taps * toUnits (fdiv (itof len) (itof taps)) * 2 ^ 149 := by ring
        _ ≤ toUnits half * 2 ^ 149 := by rw [hhu]; exact mul_le_mul_of_nonneg_right hq (by decide)
  obtain ⟨hof, ho0, hohalf⟩ := (inRange_iff (by decide) hhf).1 hprod
  rw [toUnits_fzero] at ho0
  rw [hhu] at hohalf
  obtain ⟨hfloor, hfloor'⟩ := ftoiFloor_bounds hof
  unfold tapOffset
  omega

end Sys2Proof.Machine
end

section
/-! The multitap delay (spec/46_multitap.md): what each of its seven commands does and leaves untouched (R271 to R281). A new
seed or cross seed is one `MTAP_update`, which writes the three memories of the taps alone and leaves no stale value of them
(`Multitap.fresh_update`). -/

namespace Sys2Proof.Machine

/-! ## The commands on a unit that exists (R274 to R280) -/

section
variable {s : State} {u : UnitAddr} {sd : Side} (hp : s.port = .A) (hu : unitOf u = some (.mtap sd))
include hp hu

theorem exec_mtSetTaps (v : Word) :
    exec (.mtSetTaps u v) s =
      check (tapsOk v.toNat) .cfgErr s (.next (s.setMtap sd ((s.mtap sd).setTaps v.toNat))) :=
  onMtap_eq hp hu _

theorem exec_mtSetLen (v : Word) :
    exec (.mtSetLen u v) s =
      check (lenOk v.toNat) .cfgErr s (.next (s.setMtap sd ((s.mtap sd).setLen v.toNat))) :=
  onMtap_eq hp hu _

theorem exec_mtSetDecay (v : Word) :
    exec (.mtSetDecay u v) s = check (inUnit v) .cfgErr s (.next (s.setMtap sd ((s.mtap sd).setDecay v))) :=
  onMtap_eq hp hu _

theorem exec_mtSetSeed (v : Word) :
    exec (.mtSetSeed u v) s = .next (s.setMtap sd ((s.mtap sd).setSeed Config.chip v)) := onMtap_eq hp hu _

theorem exec_mtSetX (v : Word) :
    exec (.mtSetX u v) s = check (inUnit v) .cfgErr s (.next (s.setMtap sd ((s.mtap sd).setX Config.chip v))) :=
  onMtap_eq hp hu _

theorem exec_mtStep (v : Word) :
    exec (.mtStep u v) s =
      .next ((s.setMtap sd (mtapStep Config.chip (s.mtap sd) v).2).setRes (mtapStep Config.chip (s.mtap sd) v).1) :=
  onMtap_eq hp hu _

theorem exec_mtClr : exec (.mtClr u) s = .next (s.setMtap sd (s.mtap sd).clear) := onMtap_eq hp hu _

end

/-! ## The registers that a command shows in (R32) -/

section
variable (u : Multitap) {n : Nat}

theorem mtapReg_withTaps (m : Nat) (hn : n ≠ 0) : mtapReg { u with taps := m } n = mtapReg u n := by
  match n with
  | 0 => exact absurd rfl hn
  | 1 | 2 | 3 | 4 | 5 | _ + 6 => rfl

theorem mtapReg_withLen (m : Nat) (hn : n ≠ 1) : mtapReg { u with len := m } n = mtapReg u n := by
  match n with
  | 1 => exact absurd rfl hn
  | 0 | 2 | 3 | 4 | 5 | _ + 6 => rfl

theorem mtapReg_withDecay (d : F) (hn : n ≠ 2) : mtapReg { u with decay := d } n = mtapReg u n := by
  match n with
  | 2 => exact absurd rfl hn
  | 0 | 1 | 3 | 4 | 5 | _ + 6 => rfl

theorem mtapReg_withSeed (w : Word) (hn : n ≠ 3) : mtapReg { u with seed := w } n = mtapReg u n := by
  match n with
  | 3 => exact absurd rfl hn
  | 0 | 1 | 2 | 4 | 5 | _ + 6 => rfl

theorem mtapReg_withXseed (c : F) (hn : n ≠ 4) : mtapReg { u with xseed := c } n = mtapReg u n := by
  match n with
  | 4 => exact absurd rfl hn
  | 0 | 1 | 2 | 3 | 5 | _ + 6 => rfl

theorem mtapReg_withCursor (m : Mem) (w : Nat) (hn : n ≠ 5) :
    mtapReg { u with buf := m, widx := w } n = mtapReg u n := by
  match n with
  | 5 => exact absurd rfl hn
  | 0 | 1 | 2 | 3 | 4 | _ + 6 => rfl

end

/-! ## The words of the buffer (R32, R70) -/

/-- Another buffer, and the cursor, show in memory 0 alone, and there in the words that differ. -/
theorem shownMem_withBuf (u : Multitap) {m : Mem} (w : Nat) {k i : Nat}
    (h : k = 0 → i < Config.dlCap → memRead m i = memRead u.buf i) :
    shownMem (mtapMem { u with buf := m, widx := w } k) i = shownMem (mtapMem u k) i := by
  match k with
  | 0 =>
    simp only [mtapMem, shownMem]
    split
    · next hi => rw [h rfl hi]
    · rfl
  | 1 | 2 | 3 | _ + 4 => rfl

/-! ## The settings that no random value derives from (R274 to R276) -/

/-- The multitap delay is `f` in the state `t`, and from `s` to `t` nothing but its register `n` has changed. -/
def SetsMtap (s : State) (sd : Side) (f : Multitap) (n : Nat) (t : State) : Prop :=
  t.mtap sd = f ∧ Untouched s t (fun q m => q = .mtap sd ∧ m = n) noMem

/-- A unit with its memories as they were touches the register it differs in. -/
theorem setsMtap_setMtap (s : State) (sd : Side) {f : Multitap} {n : Nat} (hmem : mtapMem f = mtapMem (s.mtap sd))
    (hreg : ∀ m, m ≠ n → mtapReg f m = mtapReg (s.mtap sd) m) : SetsMtap s sd f n (s.setMtap sd f) :=
  ⟨s.mtap_setMtap sd f, (untouched_setMtap s sd f (P := (· = n)) (Q := fun _ _ => False) hreg
    fun _ _ _ => by rw [hmem]).mono (fun _ _ => id) fun _ _ _ h => h.2⟩

/-! ## The settings that derive the taps again (R271, R273, R277, R278) -/

section
variable (cfg : Config.Params) (u : Multitap)

/-- R273: `MTAP_update` writes the three memories of the taps alone. -/
theorem Multitap.exists_update_eq :
    ∃ a b c, u.update cfg = { u with seedV := a, tapGain := b, tapPos := c } :=
  ⟨(u.update cfg).seedV, (u.update cfg).tapGain, (u.update cfg).tapPos, by
    simp only [Multitap.update, Multitap.deriveTaps, Multitap.draw]⟩

theorem mtapReg_update (n : Nat) : mtapReg (u.update cfg) n = mtapReg u n := by
  obtain ⟨a, b, c, he⟩ := u.exists_update_eq cfg
  rw [he]
  rfl

theorem mtapMem_update_zero : mtapMem (u.update cfg) 0 = mtapMem u 0 := by
  obtain ⟨a, b, c, he⟩ := u.exists_update_eq cfg
  rw [he]
  rfl

end

/-- From `s` to `t` a multitap delay takes the registers of `f`, of which number `n` is new, and all 256 taps are derived
again from the random values of its seed and cross seed. -/
def RederivesTaps (s : State) (sd : Side) (n : Nat) (f : Multitap) (t : State) : Prop :=
  t.mtap sd = { f with
    seedV := (t.mtap sd).seedV, tapGain := (t.mtap sd).tapGain, tapPos := (t.mtap sd).tapPos } ∧
  memReadList (t.mtap sd).seedV 0 (3 * Config.maxTaps) =
    generateCross Config.chip f.seed f.xseed (3 * Config.maxTaps) ∧
  (∀ i, i < Config.maxTaps → memRead (t.mtap sd).tapGain i =
    tapGainOf Config.chip (memRead (t.mtap sd).seedV (3 * i)) (memRead (t.mtap sd).seedV (3 * i + 1))) ∧
  (∀ i, i < Config.maxTaps → memRead (t.mtap sd).tapPos i = tapPosOf i (memRead (t.mtap sd).seedV (3 * i + 2))) ∧
  Untouched s t (fun q m => q = .mtap sd ∧ m = n) (fun q m _ => q = .mtap sd ∧ 1 ≤ m)

section
variable {s : State} {sd : Side} {f : Multitap} {n : Nat}

theorem untouched_setMtap_update (hbuf : f.buf = (s.mtap sd).buf)
    (hreg : ∀ m, m ≠ n → mtapReg f m = mtapReg (s.mtap sd) m) :
    Untouched s (s.setMtap sd (f.update Config.chip)) (fun q m => q = .mtap sd ∧ m = n)
      (fun q m _ => q = .mtap sd ∧ 1 ≤ m) :=
  untouched_setMtap s sd _ (P := (· = n)) (Q := fun m _ => 1 ≤ m)
    (fun m hm => (mtapReg_update _ f m).trans (hreg m hm)) fun m i hm => by
      rw [show m = 0 by omega, mtapMem_update_zero]
      simp only [mtapMem, hbuf]

/-- R273: the update after a setting of register `n`. -/
theorem rederivesTaps_update (hwf : f.SeedsWf) (hbuf : f.buf = (s.mtap sd).buf)
    (hreg : ∀ m, m ≠ n → mtapReg f m = mtapReg (s.mtap sd) m) :
    RederivesTaps s sd n f (s.setMtap sd (f.update Config.chip)) := by
  have hcoh := (Multitap.fresh_update Config.chip hwf).coherent
  have hframe := untouched_setMtap_update hbuf hreg
  obtain ⟨a, b, c, he⟩ := f.exists_update_eq Config.chip
  rw [he] at hcoh hframe ⊢
  unfold RederivesTaps
  rw [State.mtap_setMtap]
  exact ⟨rfl, hcoh.seedV, hcoh.tapGain, hcoh.tapPos, hframe⟩

end

/-- Settles O38: each setting stores one register under its check; a seed or cross seed derives all taps again. -/
theorem multitapSettings : Obligations.MultitapSettings := by
  unfold Obligations.MultitapSettings
  intro s u v sd hp hu hseedV htapGain htapPos f derives
  obtain ⟨htaps, htaps'⟩ := checked_effect (E := SetsMtap s sd { f with taps := v.toNat } 0)
    (exec_mtSetTaps hp hu v) tapsOk_iff (setsMtap_setMtap s sd rfl fun _ => mtapReg_withTaps f _)
  obtain ⟨hlen, hlen'⟩ := checked_effect (E := SetsMtap s sd { f with len := v.toNat } 1)
    (exec_mtSetLen hp hu v) lenOk_iff (setsMtap_setMtap s sd rfl fun _ => mtapReg_withLen f _)
  obtain ⟨hdecay, hdecay'⟩ := checked_effect (E := SetsMtap s sd { f with decay := v } 2)
    (exec_mtSetDecay hp hu v) Bool.and_eq_true_iff (setsMtap_setMtap s sd rfl fun _ => mtapReg_withDecay f v)
  obtain ⟨hxseed, hxseed'⟩ := checked_effect (E := RederivesTaps s sd 4 { f with xseed := v })
    (exec_mtSetX hp hu v) Bool.and_eq_true_iff
    (rederivesTaps_update ⟨hseedV, htapGain, htapPos⟩ rfl fun _ => mtapReg_withXseed f v)
  have hseed : RederivesTaps s sd 3 { f with seed := v } _ :=
    rederivesTaps_update ⟨hseedV, htapGain, htapPos⟩ rfl fun _ => mtapReg_withSeed f v
  exact ⟨htaps, htaps', hlen, hlen', fun h => ⟨hdecay h, hxseed h⟩, fun h => ⟨hdecay' h, hxseed' h⟩,
    _, exec_mtSetSeed hp hu v, hseed⟩

/-! ## The step and the clear (R272, R279 to R281) -/

section
variable (cfg : Config.Params) (u : Multitap) (v : F)

/-- R281: every tap is read with the cursor at the word just written. -/
theorem mtapStep_fst :
    (mtapStep cfg u v).1 = (List.range u.taps).foldl
      (fun acc i => fadd acc (({ u with buf := memWrite u.buf u.widx v } : Multitap).tapTerm cfg i)) fzero := rfl

theorem mtapStep_snd :
    (mtapStep cfg u v).2 = { u with buf := memWrite u.buf u.widx v, widx := advance u.widx Config.dlCap } := rfl

end

section
variable (s : State) (sd : Side)

theorem untouched_setMtap_mtapStep (v : F) :
    Untouched s (s.setMtap sd (mtapStep Config.chip (s.mtap sd) v).2) (fun q n => q = .mtap sd ∧ n = 5)
      (fun q m i => q = .mtap sd ∧ m = 0 ∧ i = (s.mtap sd).widx) :=
  untouched_setMtap s sd _ (P := (· = 5)) (Q := fun m i => m = 0 ∧ i = (s.mtap sd).widx)
    (fun _ => mtapReg_withCursor _ _ _) fun _ _ h =>
      shownMem_withBuf _ _ fun hm _ => memRead_memWrite_ne _ _ fun hi => h ⟨hm, hi⟩

theorem untouched_setMtap_clear :
    Untouched s (s.setMtap sd (s.mtap sd).clear) noReg (fun q m i => q = .mtap sd ∧ m = 0 ∧ i < Config.dlCap) :=
  (untouched_setMtap s sd (s.mtap sd).clear (P := fun _ => False) (Q := fun m i => m = 0 ∧ i < Config.dlCap)
    (fun _ _ => rfl) fun _ _ h => shownMem_withBuf (s.mtap sd) _ fun hm hi => absurd ⟨hm, hi⟩ h).mono
      (fun _ _ h => h.2) fun _ _ _ => id

/-- R280: a cleared word reads `+0`. -/
theorem readMem_setMtap_clear (hwf : Memory.wf (s.mtap sd).buf = true) {i : Nat} (hi : i < Config.dlCap) :
    readMem (s.setMtap sd (s.mtap sd).clear) (.mtap sd) 0 i = some 0#32 := by
  rw [readMem_eq, unitMem_setMtap_self]
  simp only [mtapMem, shownMem, hi, if_true]
  exact congrArg some ((memRead_memClear hwf _ _).trans (if_pos hi))

end

/-- Settles O39: the step writes one word, sums the taps in use as read from there, advances and writes `RES[A]`; the clear
leaves `+0`. -/
theorem multitapStep : Obligations.MultitapStep := by
  unfold Obligations.MultitapStep
  intro s u v sd hp hu f
  have hport (g : Multitap) : (s.setMtap sd g).port = .A := (s.setMtap_port sd g).trans hp
  refine ⟨⟨_, exec_mtStep hp hu v, ?_, ?_, ?_⟩,
    _, exec_mtClr hp hu, fun hwf i hi => readMem_setMtap_clear s sd hwf hi, untouched_setMtap_clear s sd⟩
  · rw [State.mtap_setRes, State.mtap_setMtap]
    exact mtapStep_snd Config.chip f v
  · rw [resA_setRes (hport _)]
    exact mtapStep_fst Config.chip f v
  · exact (untouched_setMtap_mtapStep s sd v).setRes_A_of_mem (hport _) _

end Sys2Proof.Machine
end

section
/-! The block processing of a diffuser, a line and a channel as one induction each (spec/44_diffuser.md R235,
spec/47_delayline.md R293, spec/48_channel.md R314): a property that the step of every sub-unit keeps is kept by the block. -/

namespace Sys2Proof.Machine

section
variable {cfg : Config.Params}

/-- R235: what every step of a stage keeps, the cascade keeps. -/
theorem diffStep_induction {P : Diffuser → Prop}
    (hstage : ∀ (d : Diffuser) (k : Fin 12) (v : F), P d → P (d.setStage k (mapStep cfg d.stage[k] v).2))
    {d : Diffuser} (h : P d) (v : F) : P (diffStep cfg d v).2 :=
  List.foldlRecOn (motive := fun acc : F × Vector Allpass 12 => P { d with stage := acc.2 }) idx12
    (cascadeStage cfg d.stages) h fun acc hacc k _ => by
    unfold cascadeStage
    split
    · exact hstage { d with stage := acc.2 } k acc.1 hacc
    · exact hacc

/-- What the parts of `DLINE_proc` must keep for the block to keep it (R293): the queue, and each stage of the
signal path whose flag is set. -/
structure DelayLine.Kept (cfg : Config.Params) (P : DelayLine → Prop) : Prop where
  pop : ∀ l, P l → P l.pop.2
  push : ∀ l v, P l → P (l.push v)
  delay : ∀ l v, P l → P { l with delay := (mdlyStep cfg l.delay v).2 }
  df : ∀ l v, flagDiffEn l.flags = true → P l → P { l with df := (diffStep cfg l.df v).2 }
  ls : ∀ l v, flagLsEn l.flags = true → P l → P { l with ls := (shelfStep l.ls v).2 }
  hs : ∀ l v, flagHsEn l.flags = true → P l → P { l with hs := (shelfStep l.hs v).2 }
  damp : ∀ l v, flagCutEn l.flags = true → P l → P { l with damp := (lp1Step cfg l.damp v).2 }

section
variable {P : DelayLine → Prop} (K : DelayLine.Kept cfg P) {l : DelayLine}
include K

theorem DelayLine.Kept.popN (h : P l) (n : Nat) : P (DelayLine.popN n l).2 := by
  induction n generalizing l with
  | zero => exact h
  | succ n ih => exact ih (K.pop l h)

theorem DelayLine.Kept.pushAll (h : P l) (vs : List F) : P (l.pushAll vs) :=
  List.foldlRecOn (motive := P) vs DelayLine.push h fun l hl v _ => K.push l v hl

theorem DelayLine.Kept.viaDiffuser (h : P l) (y : F) : P (l.viaDiffuser cfg y).2 := by
  unfold DelayLine.viaDiffuser
  split
  · next hf => exact K.df l y hf h
  · exact h

theorem DelayLine.Kept.viaLowShelf (h : P l) (y : F) : P (l.viaLowShelf y).2 := by
  unfold DelayLine.viaLowShelf
  split
  · next hf => exact K.ls l y hf h
  · exact h

theorem DelayLine.Kept.viaHighShelf (h : P l) (y : F) : P (l.viaHighShelf y).2 := by
  unfold DelayLine.viaHighShelf
  split
  · next hf => exact K.hs l y hf h
  · exact h

theorem DelayLine.Kept.viaDamping (h : P l) (y : F) : P (l.viaDamping cfg y).2 := by
  unfold DelayLine.viaDamping
  split
  · next hf => exact K.damp l y hf h
  · exact h

theorem DelayLine.Kept.sample (h : P l) (x fbv : F) : P (l.sample cfg x fbv).2.2 :=
  K.viaDamping (K.viaHighShelf (K.viaLowShelf (K.viaDiffuser (K.delay l _ h) _) _) _) _

theorem DelayLine.Kept.samples (h : P l) (xs : List (F × F)) : P (l.samples cfg xs).2.2 := by
  induction xs generalizing l with
  | nil => exact h
  | cons x xs ih => exact ih (K.sample h x.1 x.2)

theorem DelayLine.Kept.proc (h : P l) (x : List F) : P (dlineProc cfg l x).2 := K.pushAll (K.samples (K.popN h _) _) _

end

/-- What the parts of `CHAN_proc` must keep for the block to keep it (R314): each stage of the early path
whose flag is set, and every line. -/
structure Channel.Kept (cfg : Config.Params) (P : Channel → Prop) : Prop where
  hp : ∀ c v, flagHpEn c.flags = true → P c → P { c with hp := (hp1Step cfg c.hp v).2 }
  lp : ∀ c v, flagLpEn c.flags = true → P c → P { c with lp := (lp1Step cfg c.lp v).2 }
  pre : ∀ c v, P c → P { c with pre := (mdlyStep cfg c.pre v).2 }
  mt : ∀ c v, flagMtEn c.flags = true → P c → P { c with mt := (mtapStep cfg c.mt v).2 }
  ed : ∀ c v, flagEdEn c.flags = true → P c → P { c with ed := (diffStep cfg c.ed v).2 }
  line : ∀ (c : Channel) (j : Fin 12) e, P c → P (c.setLine j (dlineProc cfg c.line[j] e).2)

section
variable {P : Channel → Prop} (K : Channel.Kept cfg P) {c : Channel}
include K

theorem Channel.Kept.viaHighPass (h : P c) (a : F) : P (c.viaHighPass cfg a).2 := by
  unfold Channel.viaHighPass
  split
  · next hf => exact K.hp c a hf h
  · exact h

theorem Channel.Kept.viaLowPass (h : P c) (a : F) : P (c.viaLowPass cfg a).2 := by
  unfold Channel.viaLowPass
  split
  · next hf => exact K.lp c a hf h
  · exact h

theorem Channel.Kept.viaMultitap (h : P c) (e : F) : P (c.viaMultitap cfg e).2 := by
  unfold Channel.viaMultitap
  split
  · next hf => exact K.mt c e hf h
  · exact h

theorem Channel.Kept.viaEarlyDiffuser (h : P c) (e : F) : P (c.viaEarlyDiffuser cfg e).2 := by
  unfold Channel.viaEarlyDiffuser
  split
  · next hf => exact K.ed c e hf h
  · exact h

theorem Channel.Kept.earlySample (h : P c) (x : F) :
    P (chanEarly cfg (chanInput cfg c x).2 (chanInput cfg c x).1).2 :=
  K.viaEarlyDiffuser (K.viaMultitap (K.pre _ _ (K.viaLowPass (K.viaHighPass h _) _)) _) _

theorem Channel.Kept.earlyBlock (h : P c) (xs : List F) : P (chanEarlyBlock cfg c xs).2 := by
  induction xs generalizing c with
  | nil => exact h
  | cons x xs ih => exact ih (K.earlySample h x)

theorem Channel.Kept.lines (h : P c) (e : List F) : P (chanLines cfg c e).2 :=
  List.foldlRecOn (motive := fun acc : List F × Vector DelayLine 12 => P { c with line := acc.2 }) idx12
    (chanLine cfg c.lines e) h fun acc hacc j _ => by
    unfold chanLine
    split
    · exact K.line { c with line := acc.2 } j e hacc
    · exact hacc

theorem Channel.Kept.proc (h : P c) (x : List F) : P (chanProc cfg c x).2 := K.lines (K.earlyBlock h x) _

end

end

end Sys2Proof.Machine
end

section
/-! The settings of a unit (spec/20_memory.md R76, R85): the registers and memories that no sample changes. The signal path
leaves them as they are (spec/48_channel.md R314, spec/47_delayline.md R297), and so the debug reads show them as before. -/

namespace Sys2Proof.Machine

/-! ## The same settings -/

/-- The settings of an MDLY are the same. -/
structure ModDelay.SameSettings (u v : ModDelay) : Prop where
  dly : v.dly = u.dly
  modA : v.modA = u.modA
  modR : v.modR = u.modR

/-- The settings of a MAP are the same. -/
structure Allpass.SameSettings (u v : Allpass) : Prop where
  core : u.core.SameSettings v.core
  fb : v.fb = u.fb
  flags : v.flags = u.flags

/-- The settings of a DIFF and its stages are the same, the random values included. -/
structure Diffuser.SameSettings (d e : Diffuser) : Prop where
  stages : e.stages = d.stages
  dly : e.dly = d.dly
  fb : e.fb = d.fb
  modA : e.modA = d.modA
  modR : e.modR = d.modR
  seed : e.seed = d.seed
  xseed : e.xseed = d.xseed
  flags : e.flags = d.flags
  seedV : e.seedV = d.seedV
  stage : ∀ k : Fin 12, d.stage[k].SameSettings e.stage[k]

/-- The settings of a one-pole filter are the same. -/
structure OnePole.SameSettings (u v : OnePole) : Prop where
  fc : v.fc = u.fc
  b0 : v.b0 = u.b0
  a1 : v.a1 = u.a1

/-- The settings of a shelf are the same. -/
structure Shelf.SameSettings (u v : Shelf) : Prop where
  freq : v.freq = u.freq
  gain : v.gain = u.gain
  coeffs : v.coeffs = u.coeffs

/-- The settings of an MTAP are the same, the attributes of its taps included. -/
structure Multitap.SameSettings (u v : Multitap) : Prop where
  taps : v.taps = u.taps
  len : v.len = u.len
  decay : v.decay = u.decay
  seed : v.seed = u.seed
  xseed : v.xseed = u.xseed
  seedV : v.seedV = u.seedV
  tapGain : v.tapGain = u.tapGain
  tapPos : v.tapPos = u.tapPos

/-- The settings of a DLINE and below are the same. -/
structure DelayLine.SameSettings (l m : DelayLine) : Prop where
  fb : m.fb = l.fb
  flags : m.flags = l.flags
  delay : l.delay.SameSettings m.delay
  df : l.df.SameSettings m.df
  ls : l.ls.SameSettings m.ls
  hs : l.hs.SameSettings m.hs
  damp : l.damp.SameSettings m.damp

/-- The registers of a CHAN are the same. -/
structure Channel.SameRegs (c d : Channel) : Prop where
  inMix : d.inMix = c.inMix
  flags : d.flags = c.flags
  lines : d.lines = c.lines
  decayT : d.decayT = c.decayT
  dry : d.dry = c.dry
  early : d.early = c.early
  lineOut : d.lineOut = c.lineOut
  xseed : d.xseed = c.xseed

/-- The settings of a CHAN and below are the same. -/
structure Channel.SameSettings (c d : Channel) : Prop where
  regs : c.SameRegs d
  hp : c.hp.SameSettings d.hp
  lp : c.lp.SameSettings d.lp
  pre : c.pre.SameSettings d.pre
  mt : c.mt.SameSettings d.mt
  ed : c.ed.SameSettings d.ed
  line : ∀ j : Fin 12, c.line[j].SameSettings d.line[j]

theorem ModDelay.SameSettings.refl (u : ModDelay) : u.SameSettings u := ⟨rfl, rfl, rfl⟩

theorem Allpass.SameSettings.refl (u : Allpass) : u.SameSettings u := ⟨.refl _, rfl, rfl⟩

theorem Diffuser.SameSettings.refl (d : Diffuser) : d.SameSettings d :=
  ⟨rfl, rfl, rfl, rfl, rfl, rfl, rfl, rfl, rfl, fun _ => .refl _⟩

theorem OnePole.SameSettings.refl (u : OnePole) : u.SameSettings u := ⟨rfl, rfl, rfl⟩

theorem Shelf.SameSettings.refl (u : Shelf) : u.SameSettings u := ⟨rfl, rfl, rfl⟩

theorem Multitap.SameSettings.refl (u : Multitap) : u.SameSettings u := ⟨rfl, rfl, rfl, rfl, rfl, rfl, rfl, rfl⟩

theorem DelayLine.SameSettings.refl (l : DelayLine) : l.SameSettings l :=
  ⟨rfl, rfl, .refl _, .refl _, .refl _, .refl _, .refl _⟩

theorem Channel.SameRegs.refl (c : Channel) : c.SameRegs c := ⟨rfl, rfl, rfl, rfl, rfl, rfl, rfl, rfl⟩

theorem Channel.SameSettings.refl (c : Channel) : c.SameSettings c :=
  ⟨.refl _, .refl _, .refl _, .refl _, .refl _, .refl _, fun _ => .refl _⟩

/-! ## The signal path keeps the settings -/

section
variable {cfg : Config.Params}

theorem ModDelay.SameSettings.step {u w : ModDelay} (h : u.SameSettings w) (v : F) :
    u.SameSettings (mdlyStep cfg w v).2 := by
  obtain ⟨hdly, hmodA, hmodR⟩ := mdlyStep_settings cfg w v
  exact ⟨hdly.trans h.dly, hmodA.trans h.modA, hmodR.trans h.modR⟩

theorem Allpass.SameSettings.step {u w : Allpass} (h : u.SameSettings w) (v : F) :
    u.SameSettings (mapStep cfg w v).2 := by
  obtain ⟨hdly, hmodA, hmodR, -, -⟩ := Allpass.updated_frame cfg w
  have hcore := h.core
  rw [mapStep_snd]
  exact ⟨⟨hdly.trans hcore.dly, hmodA.trans hcore.modA, hmodR.trans hcore.modR⟩, h.fb, h.flags⟩

theorem Diffuser.SameSettings.setStage {d e : Diffuser} (h : d.SameSettings e) (k : Fin 12) {a : Allpass}
    (ha : d.stage[k].SameSettings a) : d.SameSettings (e.setStage k a) :=
  ⟨h.stages, h.dly, h.fb, h.modA, h.modR, h.seed, h.xseed, h.flags, h.seedV, fun j => by
    rw [Diffuser.setStage_stage, vec_set_get]
    split
    · next hj => exact hj ▸ ha
    · exact h.stage j⟩

theorem Diffuser.SameSettings.step {d e : Diffuser} (h : d.SameSettings e) (v : F) :
    d.SameSettings (diffStep cfg e v).2 :=
  diffStep_induction (P := d.SameSettings) (fun _ k v he => he.setStage k ((he.stage k).step v)) h v

theorem OnePole.SameSettings.withZ {u w : OnePole} (h : u.SameSettings w) (z : F) : u.SameSettings { w with z := z } :=
  ⟨h.fc, h.b0, h.a1⟩

theorem OnePole.SameSettings.lp1Step {u w : OnePole} (h : u.SameSettings w) (v : F) :
    u.SameSettings (lp1Step cfg w v).2 := h.withZ _

theorem OnePole.SameSettings.hp1Step {u w : OnePole} (h : u.SameSettings w) (v : F) :
    u.SameSettings (hp1Step cfg w v).2 := by
  unfold Machine.hp1Step
  split
  · exact h
  · exact h.withZ _

theorem Shelf.SameSettings.step {u w : Shelf} (h : u.SameSettings w) (v : F) : u.SameSettings (shelfStep w v).2 :=
  ⟨h.freq, h.gain, h.coeffs⟩

theorem Multitap.SameSettings.step {u w : Multitap} (h : u.SameSettings w) (v : F) :
    u.SameSettings (mtapStep cfg w v).2 :=
  ⟨h.taps, h.len, h.decay, h.seed, h.xseed, h.seedV, h.tapGain, h.tapPos⟩

theorem DelayLine.sameSettings_kept (l : DelayLine) : DelayLine.Kept cfg l.SameSettings where
  pop m h := by
    unfold DelayLine.pop
    split
    · exact ⟨h.fb, h.flags, h.delay, h.df, h.ls, h.hs, h.damp⟩
    · exact h
  push m v h := by
    unfold DelayLine.push
    split
    · exact ⟨h.fb, h.flags, h.delay, h.df, h.ls, h.hs, h.damp⟩
    · exact h
  delay m v h := ⟨h.fb, h.flags, h.delay.step v, h.df, h.ls, h.hs, h.damp⟩
  df m v _ h := ⟨h.fb, h.flags, h.delay, h.df.step v, h.ls, h.hs, h.damp⟩
  ls m v _ h := ⟨h.fb, h.flags, h.delay, h.df, h.ls.step v, h.hs, h.damp⟩
  hs m v _ h := ⟨h.fb, h.flags, h.delay, h.df, h.ls, h.hs.step v, h.damp⟩
  damp m v _ h := ⟨h.fb, h.flags, h.delay, h.df, h.ls, h.hs, h.damp.lp1Step v⟩

theorem DelayLine.SameSettings.proc {l m : DelayLine} (h : l.SameSettings m) (x : List F) :
    l.SameSettings (dlineProc cfg m x).2 := l.sameSettings_kept.proc h x

theorem Channel.SameRegs.withUnits {c d : Channel} (h : c.SameRegs d) (hp lp : OnePole) (pre : ModDelay) (mt : Multitap)
    (ed : Diffuser) (line : Vector DelayLine 12) :
    c.SameRegs { d with hp := hp, lp := lp, pre := pre, mt := mt, ed := ed, line := line } :=
  ⟨h.inMix, h.flags, h.lines, h.decayT, h.dry, h.early, h.lineOut, h.xseed⟩

theorem Channel.SameSettings.setLine {c d : Channel} (h : c.SameSettings d) (j : Fin 12) {l : DelayLine}
    (hl : c.line[j].SameSettings l) : c.SameSettings (d.setLine j l) :=
  ⟨h.regs.withUnits .., h.hp, h.lp, h.pre, h.mt, h.ed, fun k => by
    rw [Channel.setLine_line, vec_set_get]
    split
    · next hk => exact hk ▸ hl
    · exact h.line k⟩

theorem Channel.sameSettings_kept (c : Channel) : Channel.Kept cfg c.SameSettings where
  hp _ v _ h := ⟨h.regs.withUnits .., h.hp.hp1Step v, h.lp, h.pre, h.mt, h.ed, h.line⟩
  lp _ v _ h := ⟨h.regs.withUnits .., h.hp, h.lp.lp1Step v, h.pre, h.mt, h.ed, h.line⟩
  pre _ v h := ⟨h.regs.withUnits .., h.hp, h.lp, h.pre.step v, h.mt, h.ed, h.line⟩
  mt _ v _ h := ⟨h.regs.withUnits .., h.hp, h.lp, h.pre, h.mt.step (cfg := cfg) v, h.ed, h.line⟩
  ed _ v _ h := ⟨h.regs.withUnits .., h.hp, h.lp, h.pre, h.mt, h.ed.step v, h.line⟩
  line _ j e h := h.setLine j ((h.line j).proc e)

theorem chanProc_sameSettings (c : Channel) (x : List F) : c.SameSettings (chanProc cfg c x).2 :=
  c.sameSettings_kept.proc (.refl c) x

theorem dlineProc_sameSettings (l : DelayLine) (x : List F) : l.SameSettings (dlineProc cfg l x).2 :=
  l.sameSettings_kept.proc (.refl l) x

end

end Sys2Proof.Machine
end

section
/-! What the debug reads show of a line and of a channel that are replaced (spec/49_engine.md R385, R386): with the same
settings, every register and memory but the signal state as before; and the words of a bank that a block command writes. -/

namespace Sys2Proof.Machine

/-! ## One unit -/

section
variable {n : Nat}

theorem onePoleReg_sameSettings {u w : OnePole} (h : u.SameSettings w) (hn : n ≠ 3) : onePoleReg w n = onePoleReg u n := by
  rcases n with _ | _ | _ | _ | n
  · exact congrArg some h.fc
  · exact congrArg some h.b0
  · exact congrArg some h.a1
  · exact absurd rfl hn
  · rfl

theorem shelfReg_sameSettings {u w : Shelf} (h : u.SameSettings w) (k : Config.ShelfKind) (hn : ¬ (7 ≤ n ∧ n ≤ 10)) :
    shelfReg k w n = shelfReg k u n := by
  obtain ⟨hf, hg, hc⟩ := h
  unfold shelfReg
  split <;> first | omega | simp only [hf, hg, hc]

theorem diffReg_sameSettings {d e : Diffuser} (h : d.SameSettings e) (n : Nat) : diffReg e n = diffReg d n := by
  unfold diffReg
  rw [h.stages, h.dly, h.fb, h.modA, h.modR, h.seed, h.xseed, h.flags]

theorem mapReg_sameSettings {u w : Allpass} (h : u.SameSettings w) (hn : ¬ (5 ≤ n ∧ n ≤ 11)) : mapReg w n = mapReg u n := by
  unfold mapReg
  rw [h.fb, h.flags, mdlyReg_of_settings _ h.core.dly h.core.modA h.core.modR hn]

theorem mtapReg_sameSettings {u w : Multitap} (h : u.SameSettings w) (hn : n ≠ 5) : mtapReg w n = mtapReg u n := by
  obtain ⟨h0, h1, h2, h3, h4, -, -, -⟩ := h
  unfold mtapReg
  split <;> first | omega | simp only [h0, h1, h2, h3, h4]

theorem mtapMem_sameSettings {u w : Multitap} (h : u.SameSettings w) {m : Nat} (hm : m ≠ 0) : mtapMem w m = mtapMem u m := by
  unfold mtapMem
  split
  · exact absurd rfl hm
  all_goals simp only [h.seedV, h.tapGain, h.tapPos]

theorem lineReg_sameSettings {l m : DelayLine} (h : l.SameSettings m) (hn : ¬ (2 ≤ n ∧ n ≤ 4)) :
    lineReg m n = lineReg l n := by
  obtain ⟨h0, h1, -, -, -, -, -⟩ := h
  unfold lineReg
  split <;> first | omega | simp only [h0, h1]

theorem chanReg_sameRegs {c d : Channel} (h : c.SameRegs d) (n : Nat) : chanReg d n = chanReg c n := by
  unfold chanReg
  rw [h.inMix, h.flags, h.lines, h.decayT, h.dry, h.early, h.lineOut, h.xseed]

end

/-! ## The units of a line and of a channel (10_state.md R24) -/

/-- The units that are line `j` of side `sd` or inside it. -/
inductive LineUnit (sd : Side) (j : Fin 12) : UnitRef → Prop
  | dline : LineUnit sd j (.dline sd j)
  | delay : LineUnit sd j (.mdly (.line sd j))
  | df : LineUnit sd j (.diff (.line sd j))
  | stage (k : Fin 12) : LineUnit sd j (.map ⟨.line sd j, k⟩)
  | shelf (k : Config.ShelfKind) : LineUnit sd j (.shelf ⟨sd, j, k⟩)
  | damp : LineUnit sd j (.lp1 (.damp sd j))

/-- The units that are the channel of side `sd` or inside it. -/
inductive ChanUnit (sd : Side) : UnitRef → Prop
  | chan : ChanUnit sd (.chan sd)
  | hp : ChanUnit sd (.hp1 sd)
  | lp : ChanUnit sd (.lp1 (.chan sd))
  | pre : ChanUnit sd (.mdly (.pre sd))
  | mt : ChanUnit sd (.mtap sd)
  | ed : ChanUnit sd (.diff (.early sd))
  | stage (k : Fin 12) : ChanUnit sd (.map ⟨.early sd, k⟩)
  | line {r : UnitRef} (j : Fin 12) (h : LineUnit sd j r) : ChanUnit sd r

theorem lineUnit_iff {sd : Side} {j : Fin 12} {r : UnitRef} : LineUnit sd j r ↔ r.inLine sd j = true := by
  constructor
  · intro h
    cases h <;> simp [UnitRef.inLine]
  · intro h
    unfold UnitRef.inLine at h
    split at h <;> simp only [Bool.and_eq_true, beq_iff_eq, Bool.false_eq_true] at h
    all_goals obtain ⟨rfl, rfl⟩ := h
    exacts [.dline, .delay, .df, .stage _, .shelf _, .damp]

theorem chanUnit_iff {sd : Side} {r : UnitRef} : ChanUnit sd r ↔ r.inChan sd = true := by
  constructor
  · intro h
    cases h with
    | line j h => cases h <;> simp [UnitRef.inChan]
    | _ => simp [UnitRef.inChan]
  · intro h
    unfold UnitRef.inChan at h
    split at h <;> simp only [beq_iff_eq, Bool.false_eq_true] at h
    all_goals subst h
    exacts [.chan, .hp, .lp, .line _ .damp, .line _ (.shelf _), .stage _, .line _ (.stage _), .ed, .line _ .df, .pre,
      .line _ .delay, .mt, .line _ .dline]

/-! ## A line and a channel with the same settings -/

section
variable {s t : State} {sd : Side} {r : UnitRef} {n m : Nat}

theorem readReg_of_sameLine {j : Fin 12} (h : (s.line sd j).SameSettings (t.line sd j)) (hr : LineUnit sd j r)
    (hn : r.cls.signalReg n = false) : readReg t r n = readReg s r n := by
  cases hr with
  | dline => exact lineReg_sameSettings h (by simpa [UnitRef.cls, UnitClass.signalReg] using hn)
  | delay =>
    exact mdlyReg_of_settings _ h.delay.dly h.delay.modA h.delay.modR (by simpa [UnitRef.cls, UnitClass.signalReg] using hn)
  | df => exact diffReg_sameSettings h.df n
  | stage k => exact mapReg_sameSettings (h.df.stage k) (by simpa [UnitRef.cls, UnitClass.signalReg] using hn)
  | shelf k =>
    have hn' : ¬ (7 ≤ n ∧ n ≤ 10) := by simpa [UnitRef.cls, UnitClass.signalReg] using hn
    cases k with
    | low => exact shelfReg_sameSettings h.ls _ hn'
    | high => exact shelfReg_sameSettings h.hs _ hn'
  | damp => exact onePoleReg_sameSettings h.damp (by simpa [UnitRef.cls, UnitClass.signalReg] using hn)

theorem unitMem_of_sameLine {j : Fin 12} (h : (s.line sd j).SameSettings (t.line sd j)) (hr : LineUnit sd j r)
    (hm : r.cls.sampleMem m = false) : unitMem t r m = unitMem s r m := by
  cases hr with
  | df => exact congrArg (onlyMem 1 m · Config.diffDraws) h.df.seedV
  | shelf => rfl
  | damp => rfl
  | _ =>
    have hm' : m ≠ 0 := by simpa [UnitRef.cls, UnitClass.sampleMem] using hm
    simp only [unitMem, onlyMem, hm', if_false]

theorem readReg_of_sameChan (h : (s.chan sd).SameSettings (t.chan sd)) (hr : ChanUnit sd r)
    (hn : r.cls.signalReg n = false) : readReg t r n = readReg s r n := by
  cases hr with
  | chan => exact chanReg_sameRegs h.regs n
  | hp => exact onePoleReg_sameSettings h.hp (by simpa [UnitRef.cls, UnitClass.signalReg] using hn)
  | lp => exact onePoleReg_sameSettings h.lp (by simpa [UnitRef.cls, UnitClass.signalReg] using hn)
  | pre =>
    exact mdlyReg_of_settings _ h.pre.dly h.pre.modA h.pre.modR (by simpa [UnitRef.cls, UnitClass.signalReg] using hn)
  | mt => exact mtapReg_sameSettings h.mt (by simpa [UnitRef.cls, UnitClass.signalReg] using hn)
  | ed => exact diffReg_sameSettings h.ed n
  | stage k => exact mapReg_sameSettings (h.ed.stage k) (by simpa [UnitRef.cls, UnitClass.signalReg] using hn)
  | line j hr => exact readReg_of_sameLine (h.line j) hr hn

theorem unitMem_of_sameChan (h : (s.chan sd).SameSettings (t.chan sd)) (hr : ChanUnit sd r)
    (hm : r.cls.sampleMem m = false) : unitMem t r m = unitMem s r m := by
  cases hr with
  | chan => rfl
  | hp => rfl
  | lp => rfl
  | mt => exact mtapMem_sameSettings h.mt (by simpa [UnitRef.cls, UnitClass.sampleMem] using hm)
  | ed => exact congrArg (onlyMem 1 m · Config.diffDraws) h.ed.seedV
  | line j hr => exact unitMem_of_sameLine (h.line j) hr hm
  | _ =>
    have hm' : m ≠ 0 := by simpa [UnitRef.cls, UnitClass.sampleMem] using hm
    simp only [unitMem, onlyMem, hm', if_false]

end

/-- The signal state of the units for which `inside` holds. -/
def signalRegs (inside : UnitRef → Prop) : UnitRef → Nat → Prop := fun q n => inside q ∧ q.cls.signalReg n = true

/-- The sample memories of the units for which `inside` holds. -/
def sampleMems (inside : UnitRef → Prop) : UnitRef → Nat → Nat → Prop := fun q m _ => inside q ∧ q.cls.sampleMem m = true

theorem untouched_setLine_sameSettings (s : State) (sd : Side) (j : Fin 12) {l : DelayLine}
    (h : (s.line sd j).SameSettings l) :
    Untouched s (s.setLine sd j l) (signalRegs fun q => q.inLine sd j = true) (sampleMems fun q => q.inLine sd j = true) := by
  have hl : (s.line sd j).SameSettings ((s.setLine sd j l).line sd j) := by rwa [State.line_setLine_self]
  refine ⟨fun r n hn => ?_, fun r m i hm => ?_, by simp, by simp, by simp⟩
  · cases hr : r.inLine sd j with
    | false => exact readReg_setLine s l hr n
    | true => exact readReg_of_sameLine hl (lineUnit_iff.2 hr) (by simpa [signalRegs, hr] using hn)
  · cases hr : r.inLine sd j with
    | false => exact readMem_setLine s l hr m i
    | true =>
      rw [readMem_eq, readMem_eq, unitMem_of_sameLine hl (lineUnit_iff.2 hr) (by simpa [sampleMems, hr] using hm)]

theorem untouched_setChan_sameSettings (s : State) (sd : Side) {c : Channel} (h : (s.chan sd).SameSettings c) :
    Untouched s (s.setChan sd c) (signalRegs fun q => q.inChan sd = true) (sampleMems fun q => q.inChan sd = true) := by
  have hc : (s.chan sd).SameSettings ((s.setChan sd c).chan sd) := by rwa [State.chan_setChan_self]
  refine ⟨fun r n hn => ?_, fun r m i hm => ?_, by simp, by simp, by simp⟩
  · cases hr : r.inChan sd with
    | false => exact readReg_setChan s c hr n
    | true => exact readReg_of_sameChan hc (chanUnit_iff.2 hr) (by simpa [signalRegs, hr] using hn)
  · cases hr : r.inChan sd with
    | false => exact readMem_setChan s c hr m i
    | true =>
      rw [readMem_eq, readMem_eq, unitMem_of_sameChan hc (chanUnit_iff.2 hr) (by simpa [sampleMems, hr] using hm)]

/-! ## The words that a block command writes (10_state.md R36) -/

theorem untouched_putBlock (s : State) (b : Fin 4) (out : List F) :
    Untouched s (s.putBlock b out) noReg (fun q m i => q = .io b ∧ m = 0 ∧ i < out.length) :=
  untouched_setIo s b _ fun i hi => memRead_memWriteList_outside _ _ _ (.inr (by omega))

theorem State.putBlock_self (s : State) (b : Fin 4) (out : List F) :
    (s.putBlock b out).io[b] = memWriteList s.io[b] 0 out := by
  rw [State.putBlock_io, vec_set_get, if_pos rfl]

theorem State.putBlock_ne (s : State) {b b' : Fin 4} (h : b' ≠ b) (out : List F) : (s.putBlock b out).io[b'] = s.io[b'] := by
  rw [State.putBlock_io, vec_set_get, if_neg h]

theorem memReadList_putBlock (s : State) (b : Fin 4) (h : Memory.wf s.io[b] = true) (out : List F) :
    memReadList (s.putBlock b out).io[b] 0 out.length = out := by
  rw [State.putBlock_self, memReadList_memWriteList h]

@[simp] theorem State.block_length (s : State) (b : Fin 4) (n : Nat) : (s.block b n).length = n := memReadList_length _ _ _

end Sys2Proof.Machine
end

section
/-! The delay line (spec/47_delayline.md): what `DL.PROC` writes and leaves (R293, R297), and the feedback of one block as
the input of the next (R291, R299). -/

namespace Sys2Proof.Machine

/-! ## The commands on a line that exists (R294, R295, R297, R298) -/

section
variable {s : State} {u : UnitAddr} {sd : Side} {j : Fin 12}

theorem exec_dlSetFb (hp : s.port = .A) (hu : unitOf u = some (.dline sd j)) (g : Word) :
    exec (.dlSetFb u g) s = check (isFinite g) .cfgErr s (.next (s.setLine sd j ((s.line sd j).setFb g))) :=
  onLine_eq hp hu _

theorem exec_dlSetFlags (hp : s.port = .A) (hu : unitOf u = some (.dline sd j)) (f : Word) :
    exec (.dlSetFlags u f) s =
      check (maskOk 5 f) .cfgErr s (.next (s.setLine sd j ((s.line sd j).setFlags (f.setWidth 5)))) :=
  onLine_eq hp hu _

theorem exec_dlProc (hp : s.port = .A) (hu : unitOf u = some (.dline sd j)) (n : Word) :
    exec (.dlProc u n) s = check (blockOk n.toNat) .cfgErr s (.next (s.procLine sd j n.toNat)) :=
  onLine_eq hp hu _

theorem exec_dlClr (hp : s.port = .A) (hu : unitOf u = some (.dline sd j)) :
    exec (.dlClr u) s = .next (s.setLine sd j (s.line sd j).clear) :=
  onLine_eq hp hu _

end

theorem blockOk_iff {n : Nat} : blockOk n = true ↔ 1 ≤ n ∧ n ≤ 128 := by
  rw [blockOk, Bool.and_eq_true, decide_eq_true_iff, decide_eq_true_iff]
  rfl

/-! ## The three phases of a block (R293) -/

section
variable {cfg : Config.Params}

theorem length_popN (n : Nat) (l : DelayLine) : (DelayLine.popN n l).1.length = n := by
  induction n generalizing l with
  | zero => rfl
  | succ n ih => exact congrArg (· + 1) (ih _)

theorem DelayLine.pop_qCount (l : DelayLine) : l.pop.2.qCount = l.qCount - 1 := by
  unfold DelayLine.pop
  split
  · rfl
  · show l.qCount = l.qCount - 1
    omega

theorem popN_qCount (n : Nat) (l : DelayLine) : (DelayLine.popN n l).2.qCount = l.qCount - n := by
  induction n generalizing l with
  | zero => rfl
  | succ n ih =>
    show (DelayLine.popN n l.pop.2).2.qCount = _
    rw [ih, DelayLine.pop_qCount]
    omega

theorem samples_length (l : DelayLine) (xs : List (F × F)) :
    (l.samples cfg xs).1.length = xs.length ∧ (l.samples cfg xs).2.1.length = xs.length := by
  induction xs generalizing l with
  | nil => exact ⟨rfl, rfl⟩
  | cons x xs ih =>
    obtain ⟨h1, h2⟩ := ih (l.sample cfg x.1 x.2).2.2
    exact ⟨congrArg (· + 1) h1, congrArg (· + 1) h2⟩

/-- The feedback queue of two lines is the same. -/
structure DelayLine.SameQueue (l m : DelayLine) : Prop where
  qRd : m.qRd = l.qRd
  qWr : m.qWr = l.qWr
  qCount : m.qCount = l.qCount
  q : m.q = l.q

theorem DelayLine.SameQueue.trans {l m k : DelayLine} (h : l.SameQueue m) (h' : m.SameQueue k) : l.SameQueue k :=
  ⟨h'.qRd.trans h.qRd, h'.qWr.trans h.qWr, h'.qCount.trans h.qCount, h'.q.trans h.q⟩

theorem viaDiffuser_sameQueue (l : DelayLine) (y : F) : l.SameQueue (l.viaDiffuser cfg y).2 := by
  unfold DelayLine.viaDiffuser
  split <;> exact ⟨rfl, rfl, rfl, rfl⟩

theorem viaLowShelf_sameQueue (l : DelayLine) (y : F) : l.SameQueue (l.viaLowShelf y).2 := by
  unfold DelayLine.viaLowShelf
  split <;> exact ⟨rfl, rfl, rfl, rfl⟩

theorem viaHighShelf_sameQueue (l : DelayLine) (y : F) : l.SameQueue (l.viaHighShelf y).2 := by
  unfold DelayLine.viaHighShelf
  split <;> exact ⟨rfl, rfl, rfl, rfl⟩

theorem viaDamping_sameQueue (l : DelayLine) (y : F) : l.SameQueue (l.viaDamping cfg y).2 := by
  unfold DelayLine.viaDamping
  split <;> exact ⟨rfl, rfl, rfl, rfl⟩

/-- Phase 2 leaves the queue alone: what it takes was popped before, what it gives is pushed after. -/
theorem sample_sameQueue (l : DelayLine) (x fbv : F) : l.SameQueue (l.sample cfg x fbv).2.2 :=
  have hdelay : l.SameQueue { l with delay := (mdlyStep cfg l.delay (fadd x (fmul fbv l.fb))).2 } := ⟨rfl, rfl, rfl, rfl⟩
  (((hdelay.trans (viaDiffuser_sameQueue _ _)).trans (viaLowShelf_sameQueue _ _)).trans
    (viaHighShelf_sameQueue _ _)).trans (viaDamping_sameQueue _ _)

theorem samples_sameQueue (l : DelayLine) (xs : List (F × F)) : l.SameQueue (l.samples cfg xs).2.2 := by
  induction xs generalizing l with
  | nil => exact ⟨rfl, rfl, rfl, rfl⟩
  | cons x xs ih => exact (sample_sameQueue l x.1 x.2).trans (ih _)

theorem DelayLine.push_qCount {l : DelayLine} (h : l.qCount < 256) (v : F) : (l.push v).qCount = l.qCount + 1 := by
  rw [DelayLine.push_of_lt h]

theorem pushAll_qCount {l : DelayLine} {vs : List F} (h : l.qCount + vs.length ≤ 256) :
    (l.pushAll vs).qCount = l.qCount + vs.length := by
  induction vs generalizing l with
  | nil => rfl
  | cons v vs ih =>
    rw [List.length_cons] at h ⊢
    have hv : (l.push v).qCount = l.qCount + 1 := DelayLine.push_qCount (by omega) v
    show ((l.push v).pushAll vs).qCount = _
    rw [ih (by omega), hv]
    omega

/-- Phases 1 and 2 of a block: the outputs, the values for the queue, and the line before the pushes. -/
def DelayLine.run (cfg : Config.Params) (l : DelayLine) (x : List F) : List F × List F × DelayLine :=
  (DelayLine.popN x.length l).2.samples cfg (x.zip (DelayLine.popN x.length l).1)

theorem dlineProc_fst (l : DelayLine) (x : List F) : (dlineProc cfg l x).1 = (l.run cfg x).1 := rfl

theorem dlineProc_snd (l : DelayLine) (x : List F) :
    (dlineProc cfg l x).2 = (l.run cfg x).2.2.pushAll (l.run cfg x).2.1 := rfl

theorem run_length (l : DelayLine) (x : List F) :
    (l.run cfg x).1.length = x.length ∧ (l.run cfg x).2.1.length = x.length := by
  have h := samples_length (cfg := cfg) (DelayLine.popN x.length l).2 (x.zip (DelayLine.popN x.length l).1)
  rwa [List.length_zip, length_popN, Nat.min_self] at h

theorem run_sameQueue (l : DelayLine) (x : List F) : (DelayLine.popN x.length l).2.SameQueue (l.run cfg x).2.2 :=
  samples_sameQueue _ _

theorem dlineProc_length (l : DelayLine) (x : List F) : (dlineProc cfg l x).1.length = x.length :=
  (run_length l x).1

/-- R297: the queue count after a block of `n` samples. -/
theorem dlineProc_qCount {l : DelayLine} (hl : l.qCount ≤ 256) {x : List F} (hx : x.length ≤ 128) :
    (dlineProc cfg l x).2.qCount = (l.qCount - x.length) + x.length := by
  have hcount : (l.run cfg x).2.2.qCount = l.qCount - x.length :=
    (run_sameQueue l x).qCount.trans (popN_qCount _ _)
  have hlen : (l.run cfg x).2.1.length = x.length := (run_length l x).2
  rw [dlineProc_snd, pushAll_qCount (by omega), hcount, hlen]

/-! ## The stages whose flag is clear (R293, R297) -/

/-- `m` has the flags of `l`, and each stage whose flag is clear as `l` has it. -/
structure DelayLine.Bypassed (l m : DelayLine) : Prop where
  flags : m.flags = l.flags
  df : flagDiffEn l.flags = false → m.df = l.df
  ls : flagLsEn l.flags = false → m.ls = l.ls
  hs : flagHsEn l.flags = false → m.hs = l.hs
  damp : flagCutEn l.flags = false → m.damp = l.damp

theorem DelayLine.bypassed_kept (l : DelayLine) : DelayLine.Kept cfg l.Bypassed where
  pop m h := by
    unfold DelayLine.pop
    split
    · exact ⟨h.flags, h.df, h.ls, h.hs, h.damp⟩
    · exact h
  push m v h := by
    unfold DelayLine.push
    split
    · exact ⟨h.flags, h.df, h.ls, h.hs, h.damp⟩
    · exact h
  delay m v h := ⟨h.flags, h.df, h.ls, h.hs, h.damp⟩
  df m v hm h := ⟨h.flags, fun hl => absurd (h.flags ▸ hm) (by simp [hl]), h.ls, h.hs, h.damp⟩
  ls m v hm h := ⟨h.flags, h.df, fun hl => absurd (h.flags ▸ hm) (by simp [hl]), h.hs, h.damp⟩
  hs m v hm h := ⟨h.flags, h.df, h.ls, fun hl => absurd (h.flags ▸ hm) (by simp [hl]), h.damp⟩
  damp m v hm h := ⟨h.flags, h.df, h.ls, h.hs, fun hl => absurd (h.flags ▸ hm) (by simp [hl])⟩

theorem dlineProc_bypassed (l : DelayLine) (x : List F) : l.Bypassed (dlineProc cfg l x).2 :=
  l.bypassed_kept.proc ⟨rfl, fun _ => rfl, fun _ => rfl, fun _ => rfl, fun _ => rfl⟩ x

end

/-! ## One sample (R293) -/

theorem viaDiffuser_eq (cfg : Config.Params) (l : DelayLine) (y : F) :
    l.viaDiffuser cfg y = ((if flagDiffEn l.flags then diffStep cfg l.df y else (y, l.df)).1,
      { l with df := (if flagDiffEn l.flags then diffStep cfg l.df y else (y, l.df)).2 }) := by
  unfold DelayLine.viaDiffuser
  split <;> rfl

theorem viaLowShelf_eq (l : DelayLine) (y : F) :
    l.viaLowShelf y = ((if flagLsEn l.flags then shelfStep l.ls y else (y, l.ls)).1,
      { l with ls := (if flagLsEn l.flags then shelfStep l.ls y else (y, l.ls)).2 }) := by
  unfold DelayLine.viaLowShelf
  split <;> rfl

theorem viaHighShelf_eq (l : DelayLine) (y : F) :
    l.viaHighShelf y = ((if flagHsEn l.flags then shelfStep l.hs y else (y, l.hs)).1,
      { l with hs := (if flagHsEn l.flags then shelfStep l.hs y else (y, l.hs)).2 }) := by
  unfold DelayLine.viaHighShelf
  split <;> rfl

theorem viaDamping_eq (cfg : Config.Params) (l : DelayLine) (y : F) :
    l.viaDamping cfg y = ((if flagCutEn l.flags then lp1Step cfg l.damp y else (y, l.damp)).1,
      { l with damp := (if flagCutEn l.flags then lp1Step cfg l.damp y else (y, l.damp)).2 }) := by
  unfold DelayLine.viaDamping
  split <;> rfl

/-- "CSCORE as specified uses `after_diffuser`" (R292). -/
theorem lineTap_eq (flags : BitVec 5) (d t y : F) : lineTap flags d t y = if flagTapPost flags then t else d := rfl

/-- R293: a block of one sample pops one value, runs the path, and pushes one value; the push is never dropped, since the
pop made room in a full queue. -/
theorem dlineProc_singleton (cfg : Config.Params) {l : DelayLine} (hl : l.qCount ≤ 256) (x : F) :
    let pop := if 0 < l.qCount then memRead l.q l.qRd else fzero
    let d := mdlyStep cfg l.delay (fadd x (fmul pop l.fb))
    let a := if flagDiffEn l.flags then diffStep cfg l.df d.1 else (d.1, l.df)
    let b := if flagLsEn l.flags then shelfStep l.ls a.1 else (a.1, l.ls)
    let c := if flagHsEn l.flags then shelfStep l.hs b.1 else (b.1, l.hs)
    let e := if flagCutEn l.flags then lp1Step cfg l.damp c.1 else (c.1, l.damp)
    let r := dlineProc cfg l [x]
    r.1 = [if flagTapPost l.flags then a.1 else d.1] ∧
    r.2.delay = d.2 ∧ r.2.df = a.2 ∧ r.2.ls = b.2 ∧ r.2.hs = c.2 ∧ r.2.damp = e.2 ∧
    r.2.q = memWrite l.q l.qWr e.1 ∧ r.2.qWr = (l.qWr + 1) % 256 ∧
    r.2.qRd = (if 0 < l.qCount then (l.qRd + 1) % 256 else l.qRd) := by
  intro pop d a b c e r
  have hr : r = ([(l.pop.2.sample cfg x l.pop.1).1], (l.pop.2.sample cfg x l.pop.1).2.2.push
    (l.pop.2.sample cfg x l.pop.1).2.1) := rfl
  have hs : l.pop.2.sample cfg x l.pop.1 = (if flagTapPost l.flags then a.1 else d.1, e.1,
      { l.pop.2 with delay := d.2, df := a.2, ls := b.2, hs := c.2, damp := e.2 }) := by
    have hpop : l.pop = (pop, { l with qRd := l.pop.2.qRd, qCount := l.pop.2.qCount }) := by
      unfold DelayLine.pop pop
      split <;> rfl
    rw [hpop]
    simp only [DelayLine.sample, viaDiffuser_eq, viaLowShelf_eq, viaHighShelf_eq, viaDamping_eq, lineTap_eq]
    rfl
  have hcount : l.pop.2.qCount < 256 := by
    rw [DelayLine.pop_qCount]
    omega
  have hq : l.pop.2.q = l.q ∧ l.pop.2.qWr = l.qWr := by
    unfold DelayLine.pop
    split <;> exact ⟨rfl, rfl⟩
  have hrd : l.pop.2.qRd = if 0 < l.qCount then (l.qRd + 1) % 256 else l.qRd := by
    unfold DelayLine.pop
    split <;> rfl
  have hpush := DelayLine.push_of_lt
    (l := { l.pop.2 with delay := d.2, df := a.2, ls := b.2, hs := c.2, damp := e.2 }) hcount e.1
  rw [hr, hs, hpush, ← hrd, ← hq.1, ← hq.2]
  exact ⟨rfl, rfl, rfl, rfl, rfl, rfl, rfl, rfl, rfl⟩

/-! ## `DL.PROC` (R297) -/

/-- The output of a block in its bank, of a state `s'` that has the banks of `s`. -/
theorem memReadList_block {s s' : State} (b : Fin 4) (hio : s'.io = s.io) (h : Memory.wf s.io[b] = true) {out : List F}
    {n : Nat} (hn : out.length = n) : memReadList (s'.putBlock b out).io[b] 0 n = out := by
  subst hn
  exact memReadList_putBlock s' b (by rwa [hio]) out

/-- Settles O42: a block changes the signal state of the line and the output words (`untouched_procLine`), it leaves the
stages without their flag (`dlineProc_bypassed`), and a block of one sample is the path of R293 (`dlineProc_singleton`). -/
theorem lineProc : Obligations.LineProc := by
  unfold Obligations.LineProc
  intro s u v sd j hp hu l n
  refine ⟨fun hn hwf hl => ?_, fun hn => ?_, fun x hl => dlineProc_singleton Config.chip hl x⟩
  · have hb : blockOk v.toNat = true := blockOk_iff.2 hn
    have hlen : (s.block 0 n).length = n := s.block_length 0 n
    have hout : (dlineProc Config.chip l (s.block 0 n)).1.length = n := (dlineProc_length _ _).trans hlen
    have hline : (s.procLine sd j n).line sd j = (dlineProc Config.chip l (s.block 0 n)).2 := by
      rw [State.procLine, State.line_putBlock, State.line_setLine_self]
    obtain ⟨-, hdf, hls, hhs, hdamp⟩ := dlineProc_bypassed (cfg := Config.chip) l (s.block 0 n)
    refine ⟨s.procLine sd j n, by rw [exec_dlProc hp hu, hb, check_true], hline,
      memReadList_block 2 (s.setLine_io sd j _) hwf hout, ?_,
      fun hf => (congrArg DelayLine.df hline).trans (hdf hf), fun hf => (congrArg DelayLine.ls hline).trans (hls hf),
      fun hf => (congrArg DelayLine.hs hline).trans (hhs hf), fun hf => (congrArg DelayLine.damp hline).trans (hdamp hf), ?_⟩
    · rw [hline, dlineProc_qCount hl (by omega), hlen]
    · refine ((untouched_setLine_sameSettings s sd j (dlineProc_sameSettings l _)).trans
        (untouched_putBlock _ 2 (dlineProc Config.chip l (s.block 0 n)).1)).mono ?_ ?_
      · rintro r m (h | h)
        · exact h
        · exact h.elim
      · rintro r m i (h | h)
        · exact .inl h
        · exact .inr (hout ▸ h)
  · rw [exec_dlProc hp hu, Bool.eq_false_iff.2 fun hb => hn (blockOk_iff.1 hb), check_false]

/-! ## The latency of the feedback (R291, R299) -/

/-- Pushes that fit append their values in order. -/
theorem pushAll_contents {l : DelayLine} (hq : l.QueueOk) (hwf : Memory.wf l.q = true) {vs : List F}
    (hlen : l.qCount + vs.length ≤ 256) : (l.pushAll vs).contents = l.contents ++ vs := by
  induction vs generalizing l with
  | nil => exact (List.append_nil _).symm
  | cons v vs ih =>
    rw [List.length_cons] at hlen
    have hlt : l.qCount < 256 := by omega
    have hcount : (l.push v).qCount = l.qCount + 1 := DelayLine.push_qCount hlt v
    show ((l.push v).pushAll vs).contents = _
    rw [ih (hq.push v) (l.wf_push hwf v) (by omega), DelayLine.contents_push hq hwf hlt, List.append_assoc,
      List.singleton_append]

theorem pushAll_queueOk {l : DelayLine} (hq : l.QueueOk) (vs : List F) : (l.pushAll vs).QueueOk :=
  List.foldlRecOn (motive := DelayLine.QueueOk) vs DelayLine.push hq fun _ hl v _ => hl.push v

/-- As many pops as values wait give all of them. -/
theorem popN_contents {l : DelayLine} (hq : l.QueueOk) {n : Nat} (hn : l.contents.length = n) :
    (DelayLine.popN n l).1 = l.contents := by
  induction n generalizing l with
  | zero => exact (List.length_eq_zero_iff.1 hn).symm
  | succ n ih =>
    have hpos : 0 < l.qCount := by rw [← l.length_contents]; omega
    have hc := DelayLine.contents_pop hq hpos
    have hlen : l.pop.2.contents.length = n := by rw [hc, List.length_cons] at hn; omega
    rw [hc, ← ih hq.pop hlen]
    rfl

/-- Pops of an empty queue give `+0` and change nothing (R77). -/
theorem popN_of_empty {l : DelayLine} (h : l.qCount = 0) (n : Nat) :
    DelayLine.popN n l = (List.replicate n fzero, l) := by
  induction n with
  | zero => rfl
  | succ n ih => simp only [DelayLine.popN, DelayLine.pop_of_empty h, ih, List.replicate_succ]

theorem DelayLine.SameQueue.queueOk {l m : DelayLine} (h : l.SameQueue m) (hq : l.QueueOk) : m.QueueOk where
  rd := h.qRd ▸ hq.rd
  count := h.qCount ▸ hq.count
  wr := by rw [h.qWr, h.qRd, h.qCount, hq.wr]

/-- Settles O44: the block runs with `+0` from the empty queue, its values are all the queue holds after it, and the next
block pops as many. -/
theorem feedbackLatency : Obligations.FeedbackLatency := by
  unfold Obligations.FeedbackLatency
  intro cfg l x hq hwf hempty _ hlen r
  have hrun : l.run cfg x = r := by
    unfold DelayLine.run
    rw [popN_of_empty hempty]
  have hpost : r.2.1.length = x.length := hrun ▸ (run_length (cfg := cfg) l x).2
  have hsame : l.SameQueue r.2.2 := samples_sameQueue l _
  have hcount : r.2.2.qCount = 0 := hsame.qCount.trans hempty
  have hproc : (dlineProc cfg l x).2 = r.2.2.pushAll r.2.1 := by rw [dlineProc_snd, hrun]
  have hcontents : (r.2.2.pushAll r.2.1).contents = r.2.1 := by
    have hnil : r.2.2.contents = [] := List.length_eq_zero_iff.1 ((r.2.2.length_contents).trans hcount)
    rw [pushAll_contents (hsame.queueOk hq) (by rwa [hsame.q]) (by omega), hnil, List.nil_append]
  have hpopped : (DelayLine.popN x.length (dlineProc cfg l x).2).1 = r.2.1 := by
    rw [hproc, popN_contents (pushAll_queueOk (hsame.queueOk hq) _) (by rw [hcontents, hpost]), hcontents]
  refine ⟨by rw [dlineProc_fst, hrun], hpopped, ?_, hpost⟩
  rw [popN_qCount, hproc, pushAll_qCount (by omega), hcount, hpost, Nat.zero_add, Nat.sub_self]

end Sys2Proof.Machine
end

section
/-! The settings of a delay line and of a channel that write one register (spec/47_delayline.md R294, R295,
spec/48_channel.md R319 to R321, R323 to R325). -/

namespace Sys2Proof.Machine

/-! ## The commands on a channel that exists (R319 to R328) -/

section
variable {s : State} {u : UnitAddr} {sd : Side}

theorem exec_chSetInMix (hp : s.port = .A) (hu : unitOf u = some (.chan sd)) (g : Word) :
    exec (.chSetInMix u g) s = check (isFinite g) .cfgErr s (.next (s.setChan sd ((s.chan sd).setInMix g))) :=
  onChan_eq hp hu _

theorem exec_chSetFlags (hp : s.port = .A) (hu : unitOf u = some (.chan sd)) (f : Word) :
    exec (.chSetFlags u f) s =
      check (maskOk 4 f) .cfgErr s (.next (s.setChan sd ((s.chan sd).setFlags (f.setWidth 4)))) :=
  onChan_eq hp hu _

theorem exec_chSetLines (hp : s.port = .A) (hu : unitOf u = some (.chan sd)) (n : Word) :
    exec (.chSetLines u n) s = check (linesOk n.toNat) .cfgErr s (.next (s.setChan sd ((s.chan sd).setLines n.toNat))) :=
  onChan_eq hp hu _

theorem exec_chSetDecay (hp : s.port = .A) (hu : unitOf u = some (.chan sd)) (t : Word) :
    exec (.chSetDecay u t) s =
      check (decayTOk t) .cfgErr s (.next (s.setChan sd ((s.chan sd).setDecay Config.chip t))) :=
  onChan_eq hp hu _

theorem exec_chSetDry (hp : s.port = .A) (hu : unitOf u = some (.chan sd)) (g : Word) :
    exec (.chSetDry u g) s = check (isFinite g) .cfgErr s (.next (s.setChan sd ((s.chan sd).setDry g))) :=
  onChan_eq hp hu _

theorem exec_chSetEarly (hp : s.port = .A) (hu : unitOf u = some (.chan sd)) (g : Word) :
    exec (.chSetEarly u g) s = check (isFinite g) .cfgErr s (.next (s.setChan sd ((s.chan sd).setEarly g))) :=
  onChan_eq hp hu _

theorem exec_chSetLineOut (hp : s.port = .A) (hu : unitOf u = some (.chan sd)) (g : Word) :
    exec (.chSetLineOut u g) s = check (isFinite g) .cfgErr s (.next (s.setChan sd ((s.chan sd).setLineOut g))) :=
  onChan_eq hp hu _

theorem exec_chSetX (hp : s.port = .A) (hu : unitOf u = some (.chan sd)) (c : Word) :
    exec (.chSetX u c) s = check (inUnit c) .cfgErr s (.next (s.setChan sd ((s.chan sd).setX Config.chip c))) :=
  onChan_eq hp hu _

theorem exec_chProc (hp : s.port = .A) (hu : unitOf u = some (.chan sd)) (n : Word) :
    exec (.chProc u n) s = check (blockOk n.toNat) .cfgErr s (.next (s.procChan sd n.toNat)) :=
  onChan_eq hp hu _

theorem exec_chClr (hp : s.port = .A) (hu : unitOf u = some (.chan sd)) :
    exec (.chClr u) s = .next (s.setChan sd (s.chan sd).clear) :=
  onChan_eq hp hu _

end

/-! ## The legal operands -/

theorem linesOk_iff {n : Nat} : linesOk n = true ↔ 1 ≤ n ∧ n ≤ 12 := by
  rw [linesOk, Bool.and_eq_true, decide_eq_true_iff, decide_eq_true_iff]
  rfl

theorem maskOk_iff {n : Nat} {f : Word} : maskOk n f = true ↔ f.toNat < 2 ^ n := decide_eq_true_iff

/-! ## The frame of a line and of a channel that are replaced -/

section
variable {s : State} {sd : Side} {R : UnitRef → Nat → Prop} {M : UnitRef → Nat → Nat → Prop}

/-- It is enough to look at the units of the line. -/
theorem untouched_setLine {j : Fin 12} {l : DelayLine}
    (hreg : ∀ q n, LineUnit sd j q → ¬ R q n → readReg (s.setLine sd j l) q n = readReg s q n)
    (hmem : ∀ q m i, LineUnit sd j q → ¬ M q m i → readMem (s.setLine sd j l) q m i = readMem s q m i) :
    Untouched s (s.setLine sd j l) R M := by
  refine ⟨fun q n hn => ?_, fun q m i hm => ?_, by simp, by simp, by simp⟩
  · cases hq : q.inLine sd j with
    | false => exact readReg_setLine s l hq n
    | true => exact hreg q n (lineUnit_iff.2 hq) hn
  · cases hq : q.inLine sd j with
    | false => exact readMem_setLine s l hq m i
    | true => exact hmem q m i (lineUnit_iff.2 hq) hm

/-- It is enough to look at the units of the channel. -/
theorem untouched_setChan {c : Channel}
    (hreg : ∀ q n, ChanUnit sd q → ¬ R q n → readReg (s.setChan sd c) q n = readReg s q n)
    (hmem : ∀ q m i, ChanUnit sd q → ¬ M q m i → readMem (s.setChan sd c) q m i = readMem s q m i) :
    Untouched s (s.setChan sd c) R M := by
  refine ⟨fun q n hn => ?_, fun q m i hm => ?_, by simp, by simp, by simp⟩
  · cases hq : q.inChan sd with
    | false => exact readReg_setChan s c hq n
    | true => exact hreg q n (chanUnit_iff.2 hq) hn
  · cases hq : q.inChan sd with
    | false => exact readMem_setChan s c hq m i
    | true => exact hmem q m i (chanUnit_iff.2 hq) hm

end

/-! ## One register of a line or of a channel -/

/-- The sub-units of two lines, and the words of their queues, are the same. -/
structure DelayLine.SameUnits (l m : DelayLine) : Prop where
  q : m.q = l.q
  delay : m.delay = l.delay
  df : m.df = l.df
  ls : m.ls = l.ls
  hs : m.hs = l.hs
  damp : m.damp = l.damp

/-- The sub-units of two channels but their lines are the same. -/
structure Channel.SameUnits (c d : Channel) : Prop where
  hp : d.hp = c.hp
  lp : d.lp = c.lp
  pre : d.pre = c.pre
  mt : d.mt = c.mt
  ed : d.ed = c.ed

section
variable {s t : State} {sd : Side} {q : UnitRef}

theorem readReg_of_sameUnits_line {j : Fin 12} (h : (s.line sd j).SameUnits (t.line sd j)) (hq : LineUnit sd j q)
    (hne : q ≠ .dline sd j) (n : Nat) : readReg t q n = readReg s q n := by
  cases hq with
  | dline => exact absurd rfl hne
  | delay => exact congrArg (mdlyReg · n) h.delay
  | df => exact congrArg (diffReg · n) h.df
  | stage k => exact congrArg (fun d : Diffuser => mapReg d.stage[k] n) h.df
  | shelf k =>
    cases k with
    | low => exact congrArg (shelfReg _ · n) h.ls
    | high => exact congrArg (shelfReg _ · n) h.hs
  | damp => exact congrArg (onePoleReg · n) h.damp

theorem readMem_of_sameUnits_line {j : Fin 12} (h : (s.line sd j).SameUnits (t.line sd j)) (hq : LineUnit sd j q)
    (m i : Nat) : readMem t q m i = readMem s q m i := by
  cases hq with
  | dline => exact congrArg (fun b => shownMem (onlyMem 0 m b _) i) h.q
  | delay => exact congrArg (fun u : ModDelay => shownMem (onlyMem 0 m u.buf _) i) h.delay
  | df => exact congrArg (fun d : Diffuser => shownMem (onlyMem 1 m d.seedV _) i) h.df
  | stage k => exact congrArg (fun d : Diffuser => shownMem (onlyMem 0 m d.stage[k].core.buf _) i) h.df
  | shelf k => rfl
  | damp => rfl

/-- The registers of the channel itself apart, it is enough to look at the lines. -/
theorem readReg_of_sameUnits_chan (h : (s.chan sd).SameUnits (t.chan sd)) (hq : ChanUnit sd q) (hne : q ≠ .chan sd)
    {n : Nat} (hline : ∀ j, LineUnit sd j q → readReg t q n = readReg s q n) : readReg t q n = readReg s q n := by
  cases hq with
  | chan => exact absurd rfl hne
  | hp => exact congrArg (onePoleReg · n) h.hp
  | lp => exact congrArg (onePoleReg · n) h.lp
  | pre => exact congrArg (mdlyReg · n) h.pre
  | mt => exact congrArg (mtapReg · n) h.mt
  | ed => exact congrArg (diffReg · n) h.ed
  | stage k => exact congrArg (fun d : Diffuser => mapReg d.stage[k] n) h.ed
  | line j hq => exact hline j hq

theorem readMem_of_sameUnits_chan (h : (s.chan sd).SameUnits (t.chan sd)) (hq : ChanUnit sd q) {m i : Nat}
    (hline : ∀ j, LineUnit sd j q → readMem t q m i = readMem s q m i) : readMem t q m i = readMem s q m i := by
  cases hq with
  | chan => rfl
  | hp => rfl
  | lp => rfl
  | pre => exact congrArg (fun u : ModDelay => shownMem (onlyMem 0 m u.buf _) i) h.pre
  | mt => exact congrArg (fun u => shownMem (mtapMem u m) i) h.mt
  | ed => exact congrArg (fun d : Diffuser => shownMem (onlyMem 1 m d.seedV _) i) h.ed
  | stage k => exact congrArg (fun d : Diffuser => shownMem (onlyMem 0 m d.stage[k].core.buf _) i) h.ed
  | line j hq => exact hline j hq

end

section
variable (s : State) (sd : Side)

theorem untouched_setLine_reg (j : Fin 12) {l : DelayLine} (h : (s.line sd j).SameUnits l) {k : Nat}
    (hk : ∀ n, n ≠ k → lineReg l n = lineReg (s.line sd j) n) :
    Untouched s (s.setLine sd j l) (fun q n => q = .dline sd j ∧ n = k) noMem := by
  have hl : (s.line sd j).SameUnits ((s.setLine sd j l).line sd j) := by rwa [State.line_setLine_self]
  refine untouched_setLine (fun q n hq hn => ?_) fun q m i hq _ => readMem_of_sameUnits_line hl hq m i
  by_cases hd : q = .dline sd j
  · subst hd
    exact (congrArg (lineReg · n) (s.line_setLine_self sd j l)).trans (hk n fun e => hn ⟨rfl, e⟩)
  · exact readReg_of_sameUnits_line hl hq hd n

/-- A channel replaced by one with the same sub-units, whose register `k` may differ, and register `FB` of its lines where
`fb` holds. -/
theorem untouched_setChan_regs {c : Channel} (h : (s.chan sd).SameUnits c)
    (hunits : ∀ j : Fin 12, (s.line sd j).SameUnits c.line[j]) {k : Nat} {fb : Prop}
    (hk : ∀ n, n ≠ k → chanReg c n = chanReg (s.chan sd) n)
    (hfb : ∀ (j : Fin 12) n, ¬ (fb ∧ n = 0) → lineReg c.line[j] n = lineReg (s.line sd j) n) :
    Untouched s (s.setChan sd c) (fun q n => (q = .chan sd ∧ n = k) ∨ (fb ∧ ∃ j, q = .dline sd j ∧ n = 0)) noMem := by
  have hc : (s.chan sd).SameUnits ((s.setChan sd c).chan sd) := by rwa [State.chan_setChan_self]
  have hline (j : Fin 12) : (s.setChan sd c).line sd j = c.line[j] := by rw [State.line_setChan, if_pos rfl]
  have hl (j : Fin 12) : (s.line sd j).SameUnits ((s.setChan sd c).line sd j) := hline j ▸ hunits j
  refine untouched_setChan (fun q n hq hn => ?_) fun q m i hq _ =>
    readMem_of_sameUnits_chan hc hq fun j hq => readMem_of_sameUnits_line (hl j) hq m i
  by_cases hd : q = .chan sd
  · subst hd
    exact (congrArg (chanReg · n) (s.chan_setChan_self sd c)).trans (hk n fun e => hn (.inl ⟨rfl, e⟩))
  · refine readReg_of_sameUnits_chan hc hq hd fun j hq => ?_
    by_cases hd : q = .dline sd j
    · subst hd
      exact (congrArg (lineReg · n) (hline j)).trans (hfb j n fun e => hn (.inr ⟨e.1, j, rfl, e.2⟩))
    · exact readReg_of_sameUnits_line (hl j) hq hd n

/-- A channel replaced by one with the same sub-units, whose register `k` may differ. -/
theorem untouched_setChan_reg {c : Channel} (h : (s.chan sd).SameUnits c) (hl : c.line = (s.chan sd).line) {k : Nat}
    (hk : ∀ n, n ≠ k → chanReg c n = chanReg (s.chan sd) n) :
    Untouched s (s.setChan sd c) (fun q n => q = .chan sd ∧ n = k) noMem := by
  have hj (j : Fin 12) : c.line[j] = s.line sd j := congrArg (fun v : Vector DelayLine 12 => v[j]) hl
  refine (untouched_setChan_regs s sd h (fun j => by rw [hj]; exact ⟨rfl, rfl, rfl, rfl, rfl, rfl⟩) (fb := False) hk
    fun j n _ => by rw [hj]).mono (fun q n hq => ?_) fun _ _ _ hm => hm
  exact hq.elim id fun hfalse => hfalse.1.elim

end

section
variable (l : DelayLine) (c : Channel) {n : Nat}

theorem lineReg_withFb (g : F) (hn : n ≠ 0) : lineReg { l with fb := g } n = lineReg l n := by
  match n with
  | 0 => exact absurd rfl hn
  | 1 | 2 | 3 | 4 | _ + 5 => rfl

theorem lineReg_withFlags (m : BitVec 5) (hn : n ≠ 1) : lineReg { l with flags := m } n = lineReg l n := by
  match n with
  | 1 => exact absurd rfl hn
  | 0 | 2 | 3 | 4 | _ + 5 => rfl

theorem chanReg_withInMix (g : F) (hn : n ≠ 0) : chanReg { c with inMix := g } n = chanReg c n := by
  match n with
  | 0 => exact absurd rfl hn
  | 1 | 2 | 3 | 4 | 5 | 6 | 7 | _ + 8 => rfl

theorem chanReg_withFlags (m : BitVec 4) (hn : n ≠ 1) : chanReg { c with flags := m } n = chanReg c n := by
  match n with
  | 1 => exact absurd rfl hn
  | 0 | 2 | 3 | 4 | 5 | 6 | 7 | _ + 8 => rfl

theorem chanReg_withLines (k : Nat) (hn : n ≠ 2) : chanReg { c with lines := k } n = chanReg c n := by
  match n with
  | 2 => exact absurd rfl hn
  | 0 | 1 | 3 | 4 | 5 | 6 | 7 | _ + 8 => rfl

theorem chanReg_withDecayT (t : F) (hn : n ≠ 3) : chanReg { c with decayT := t } n = chanReg c n := by
  match n with
  | 3 => exact absurd rfl hn
  | 0 | 1 | 2 | 4 | 5 | 6 | 7 | _ + 8 => rfl

theorem chanReg_withDry (g : F) (hn : n ≠ 4) : chanReg { c with dry := g } n = chanReg c n := by
  match n with
  | 4 => exact absurd rfl hn
  | 0 | 1 | 2 | 3 | 5 | 6 | 7 | _ + 8 => rfl

theorem chanReg_withEarly (g : F) (hn : n ≠ 5) : chanReg { c with early := g } n = chanReg c n := by
  match n with
  | 5 => exact absurd rfl hn
  | 0 | 1 | 2 | 3 | 4 | 6 | 7 | _ + 8 => rfl

theorem chanReg_withLineOut (g : F) (hn : n ≠ 6) : chanReg { c with lineOut := g } n = chanReg c n := by
  match n with
  | 6 => exact absurd rfl hn
  | 0 | 1 | 2 | 3 | 4 | 5 | 7 | _ + 8 => rfl

theorem chanReg_withXseed (x : F) (hn : n ≠ 7) : chanReg { c with xseed := x } n = chanReg c n := by
  match n with
  | 7 => exact absurd rfl hn
  | 0 | 1 | 2 | 3 | 4 | 5 | 6 | _ + 8 => rfl

end

/-! ## The settings -/

/-- From `s` to `t` line `j` becomes `l`, which shows in its register `k` alone. -/
def SetsLine (s : State) (sd : Side) (j : Fin 12) (l : DelayLine) (k : Nat) (t : State) : Prop :=
  t.line sd j = l ∧ Untouched s t (fun q n => q = .dline sd j ∧ n = k) noMem

/-- From `s` to `t` the channel becomes `c`, which shows in its register `k` alone. -/
def SetsChan (s : State) (sd : Side) (c : Channel) (k : Nat) (t : State) : Prop :=
  t.chan sd = c ∧ Untouched s t (fun q n => q = .chan sd ∧ n = k) noMem

theorem setsLine_setLine (s : State) (sd : Side) (j : Fin 12) (l : DelayLine) (h : (s.line sd j).SameUnits l) {k : Nat}
    (hk : ∀ n, n ≠ k → lineReg l n = lineReg (s.line sd j) n) : SetsLine s sd j l k (s.setLine sd j l) :=
  ⟨s.line_setLine_self sd j l, untouched_setLine_reg s sd j h hk⟩

theorem setsChan_setChan (s : State) (sd : Side) (c : Channel) (h : (s.chan sd).SameUnits c)
    (hl : c.line = (s.chan sd).line) {k : Nat} (hk : ∀ n, n ≠ k → chanReg c n = chanReg (s.chan sd) n) :
    SetsChan s sd c k (s.setChan sd c) :=
  ⟨s.chan_setChan_self sd c, untouched_setChan_reg s sd h hl hk⟩

/-- A field of the low bits, as an extract. -/
theorem setWidth_eq_extractLsb' (n : Nat) (f : Word) : f.setWidth n = f.extractLsb' 0 n := by
  ext i hi
  simp

/-- Settles O41: every setting is one update of one register under one check. -/
theorem lineAndChannelSettings : Obligations.LineAndChannelSettings := by
  unfold Obligations.LineAndChannelSettings
  intro s u v hp
  refine ⟨fun sd j hu => ?_, fun sd hu => ?_⟩
  · obtain ⟨fb, fb_fault⟩ := checked_effect (exec_dlSetFb hp hu v) Iff.rfl
      (setsLine_setLine s sd j ((s.line sd j).setFb v) ⟨rfl, rfl, rfl, rfl, rfl, rfl⟩
        fun n => lineReg_withFb _ v)
    obtain ⟨flags, flags_fault⟩ := checked_effect (exec_dlSetFlags hp hu v) maskOk_iff
      (setsLine_setLine s sd j ((s.line sd j).setFlags (v.setWidth 5)) ⟨rfl, rfl, rfl, rfl, rfl, rfl⟩
        fun n => lineReg_withFlags _ (v.setWidth 5))
    rw [setWidth_eq_extractLsb'] at flags
    exact ⟨fb, fun h => fb_fault (by simp [h]), flags, fun h => flags_fault (Nat.not_lt.2 h)⟩
  · intro c
    obtain ⟨inMix, inMix_fault⟩ := checked_effect (exec_chSetInMix hp hu v) Iff.rfl
      (setsChan_setChan s sd ((s.chan sd).setInMix v) ⟨rfl, rfl, rfl, rfl, rfl⟩ rfl
        fun n => chanReg_withInMix _ v)
    obtain ⟨dry, dry_fault⟩ := checked_effect (exec_chSetDry hp hu v) Iff.rfl
      (setsChan_setChan s sd ((s.chan sd).setDry v) ⟨rfl, rfl, rfl, rfl, rfl⟩ rfl
        fun n => chanReg_withDry _ v)
    obtain ⟨early, early_fault⟩ := checked_effect (exec_chSetEarly hp hu v) Iff.rfl
      (setsChan_setChan s sd ((s.chan sd).setEarly v) ⟨rfl, rfl, rfl, rfl, rfl⟩ rfl
        fun n => chanReg_withEarly _ v)
    obtain ⟨lineOut, lineOut_fault⟩ := checked_effect (exec_chSetLineOut hp hu v) Iff.rfl
      (setsChan_setChan s sd ((s.chan sd).setLineOut v) ⟨rfl, rfl, rfl, rfl, rfl⟩ rfl
        fun n => chanReg_withLineOut _ v)
    obtain ⟨flags, flags_fault⟩ := checked_effect (exec_chSetFlags hp hu v) maskOk_iff
      (setsChan_setChan s sd ((s.chan sd).setFlags (v.setWidth 4)) ⟨rfl, rfl, rfl, rfl, rfl⟩ rfl
        fun n => chanReg_withFlags _ (v.setWidth 4))
    obtain ⟨lines, lines_fault⟩ := checked_effect (exec_chSetLines hp hu v) linesOk_iff
      (setsChan_setChan s sd ((s.chan sd).setLines v.toNat) ⟨rfl, rfl, rfl, rfl, rfl⟩ rfl
        fun n => chanReg_withLines _ v.toNat)
    rw [setWidth_eq_extractLsb'] at flags
    refine ⟨fun h => ⟨inMix h, dry h, early h, lineOut h⟩, fun h => ?_, flags, fun h => flags_fault (Nat.not_lt.2 h),
      lines, lines_fault⟩
    have hv : ¬ isFinite v = true := by simp [h]
    exact ⟨inMix_fault hv, dry_fault hv, early_fault hv, lineOut_fault hv⟩

end Sys2Proof.Machine
end

section
/-! A decay time and a cross seed of a channel (spec/48_channel.md R315, R322, R326): the registers of every line and of
every randomized unit that they reach, and what derives from them. -/

namespace Sys2Proof.Machine

/-! ## The cross seed of one unit (R230, R278) -/

section
variable (cfg : Config.Params) (x : F) {n : Nat}

/-- The registers of a stage that a re-derivation writes: `DLY`, `MODA`, `MODR` and the taps (R223). -/
def DerivedReg (n : Nat) : Prop := n = 0 ∨ n = 2 ∨ n = 3 ∨ 7 ≤ n ∧ n ≤ 10

theorem diffReg_setX (d : Diffuser) (hn : n ≠ 6) : diffReg (d.setX cfg x) n = diffReg d n :=
  (diffReg_update cfg _ n).trans (diffReg_withXseed d x hn)

theorem mapReg_setX (d : Diffuser) (k : Fin 12) (hn : ¬ DerivedReg n) :
    mapReg (d.setX cfg x).stage[k] n = mapReg d.stage[k] n := by
  rw [Diffuser.setX, Diffuser.update_stage]
  exact mapReg_deriveStage cfg _ k.val _ hn

theorem setX_sameSignal (d : Diffuser) : d.SameSignal (d.setX cfg x) :=
  Diffuser.sameSignal_update cfg { d with xseed := x }

theorem Diffuser.setX_derived {d : Diffuser} (h : Memory.wf d.seedV = true) : (d.setX cfg x).Derived cfg :=
  Diffuser.derived_update cfg (d := { d with xseed := x }) h

theorem Diffuser.setX_xseed (d : Diffuser) : (d.setX cfg x).xseed = x := Diffuser.update_xseed cfg _

theorem mtapReg_setX (u : Multitap) (hn : n ≠ 4) : mtapReg (u.setX cfg x) n = mtapReg u n :=
  (mtapReg_update cfg _ n).trans (mtapReg_withXseed u x hn)

theorem Multitap.setX_xseed (u : Multitap) : (u.setX cfg x).xseed = x := Multitap.update_xseed cfg _

theorem Multitap.setX_cursor (u : Multitap) : (u.setX cfg x).widx = u.widx ∧ (u.setX cfg x).buf = u.buf := by
  obtain ⟨a, b, c, he⟩ := Multitap.exists_update_eq cfg { u with xseed := x }
  rw [Multitap.setX, he]
  exact ⟨rfl, rfl⟩

end

/-! ## The whole channel (R322, R326) -/

section
variable (cfg : Config.Params) (c : Channel)

theorem Channel.setX_line (x : F) (j : Fin 12) :
    (c.setX cfg x).line[j] = { c.line[j] with df := c.line[j].df.setX cfg x } := getElem_vecMap _ _ j

theorem Channel.setDecay_line (t : F) (j : Fin 12) :
    (c.setDecay cfg t).line[j] = c.line[j].setFb (lineFb cfg c.line[j].delay.dly t) := getElem_vecMap _ _ j

/-- A cross seed derives again and keeps the signal state (R326, R363). -/
theorem Channel.setX_sameSignal (x : F) : c.SameSignal (c.setX cfg x) where
  hp := rfl
  lp := rfl
  pre := ⟨rfl, rfl, rfl, rfl⟩
  widx := (c.mt.setX_cursor cfg x).1
  buf := (c.mt.setX_cursor cfg x).2
  ed := Machine.setX_sameSignal cfg x c.ed
  line j := by
    rw [Channel.setX_line]
    exact ⟨rfl, rfl, rfl, rfl, ⟨rfl, rfl, rfl, rfl⟩, Machine.setX_sameSignal cfg x _, ⟨rfl, rfl, rfl, rfl⟩,
      ⟨rfl, rfl, rfl, rfl⟩, rfl⟩

end

/-- A division that a decay time passes (R322). -/
theorem decayTOk_iff {t : F} : decayTOk t = true ↔ flt fzero t = true ∧ isInf t = false := by
  rw [decayTOk, Bool.and_eq_true, Bool.not_eq_true']

/-- What `CH.SETDECAY` does (R322): its register, and the gain of every line. -/
def SetsDecay (s : State) (sd : Side) (v : F) (t : State) : Prop :=
  (t.chan sd).decayT = v ∧
  (∀ j, t.line sd j = { s.line sd j with fb := lineFb Config.chip (s.line sd j).delay.dly v }) ∧
  Untouched s t (fun q n => (q = .chan sd ∧ n = 3) ∨ ∃ j, q = .dline sd j ∧ n = 0) noMem

theorem setsDecay_setDecay (s : State) (sd : Side) (v : F) :
    SetsDecay s sd v (s.setChan sd ((s.chan sd).setDecay Config.chip v)) := by
  refine ⟨by rw [State.chan_setChan_self]; rfl, fun j => ?_, ?_⟩
  · rw [State.line_setChan, if_pos rfl]
    exact Channel.setDecay_line _ _ v j
  · refine (untouched_setChan_regs s sd (c := (s.chan sd).setDecay Config.chip v) ⟨rfl, rfl, rfl, rfl, rfl⟩ (fun j => ?_)
      (fb := True) (fun n => chanReg_withDecayT (s.chan sd) v) fun j n hn => ?_).mono
      (fun q n => Or.imp_right And.right) fun _ _ _ => id
    · rw [Channel.setDecay_line]
      exact ⟨rfl, rfl, rfl, rfl, rfl, rfl⟩
    · rw [Channel.setDecay_line]
      exact lineReg_withFb _ _ fun e => hn ⟨trivial, e⟩

/-- The registers that `CH.SETX` writes in a channel (R326). -/
def crossSeedRegs (sd : Side) (q : UnitRef) (n : Nat) : Prop :=
  (q = .chan sd ∧ n = 7) ∨ (q = .mtap sd ∧ n = 4) ∨ (∃ r, q = .diff r ∧ q.inChan sd = true ∧ n = 6) ∨
    ∃ r, q = .map r ∧ q.inChan sd = true ∧ DerivedReg n

/-- The memories that `CH.SETX` writes in a channel (R326). -/
def crossSeedMems (sd : Side) (q : UnitRef) (m : Nat) : Prop :=
  (q = .mtap sd ∧ 1 ≤ m) ∨ ∃ r, q = .diff r ∧ q.inChan sd = true ∧ m = 1

section
variable {s t : State} {sd : Side} {q : UnitRef} {x : F} {n m : Nat}

theorem readReg_of_setX_line {j : Fin 12} (h : t.line sd j = { s.line sd j with df := (s.line sd j).df.setX Config.chip x })
    (hq : LineUnit sd j q) (hn : ¬ crossSeedRegs sd q n) : readReg t q n = readReg s q n := by
  cases hq with
  | dline => exact (congrArg (lineReg · n) h).trans rfl
  | delay => exact (congrArg (fun l : DelayLine => mdlyReg l.delay n) h).trans rfl
  | df =>
    exact (congrArg (fun l : DelayLine => diffReg l.df n) h).trans
      (diffReg_setX _ x _ fun e => hn (.inr (.inr (.inl ⟨_, rfl, by simp [UnitRef.inChan], e⟩))))
  | stage k =>
    exact (congrArg (fun l : DelayLine => mapReg l.df.stage[k] n) h).trans
      (mapReg_setX _ x _ k fun e => hn (.inr (.inr (.inr ⟨_, rfl, by simp [UnitRef.inChan], e⟩))))
  | shelf k =>
    cases k with
    | low => exact (congrArg (fun l : DelayLine => shelfReg .low l.ls n) h).trans rfl
    | high => exact (congrArg (fun l : DelayLine => shelfReg .high l.hs n) h).trans rfl
  | damp => exact (congrArg (fun l : DelayLine => onePoleReg l.damp n) h).trans rfl

theorem readMem_of_setX_line {j : Fin 12} (h : t.line sd j = { s.line sd j with df := (s.line sd j).df.setX Config.chip x })
    (hq : LineUnit sd j q) {i : Nat} (hm : ¬ crossSeedMems sd q m) : readMem t q m i = readMem s q m i := by
  cases hq with
  | dline => exact (congrArg (fun l : DelayLine => shownMem (onlyMem 0 m l.q _) i) h).trans rfl
  | delay => exact (congrArg (fun l : DelayLine => shownMem (onlyMem 0 m l.delay.buf _) i) h).trans rfl
  | df =>
    have hm1 : m ≠ 1 := fun e => hm (.inr ⟨_, rfl, by simp [UnitRef.inChan], e⟩)
    simp only [readMem_eq, unitMem, onlyMem, hm1, if_false]
  | stage k =>
    refine (congrArg (fun l : DelayLine => shownMem (onlyMem 0 m l.df.stage[k].core.buf _) i) h).trans ?_
    exact congrArg (fun b => shownMem (onlyMem 0 m b _) i) (setX_sameSignal Config.chip x (s.line sd j).df k).buf
  | shelf k => rfl
  | damp => rfl

theorem untouched_setX (s : State) (sd : Side) (x : F) :
    Untouched s (s.setChan sd ((s.chan sd).setX Config.chip x)) (crossSeedRegs sd) (fun q m _ => crossSeedMems sd q m) := by
  have hc := s.chan_setChan_self sd ((s.chan sd).setX Config.chip x)
  have hl (j : Fin 12) : (s.setChan sd ((s.chan sd).setX Config.chip x)).line sd j =
      { s.line sd j with df := (s.line sd j).df.setX Config.chip x } := by
    rw [State.line_setChan, if_pos rfl]
    exact Channel.setX_line _ _ x j
  have hed := Machine.setX_sameSignal Config.chip x (s.chan sd).ed
  refine untouched_setChan (fun q n hq hn => ?_) fun q m i hq hm => ?_
  · cases hq with
    | chan => exact (congrArg (chanReg · n) hc).trans (chanReg_withXseed (s.chan sd) x fun e => hn (.inl ⟨rfl, e⟩))
    | hp => exact (congrArg (fun c : Channel => onePoleReg c.hp n) hc).trans rfl
    | lp => exact (congrArg (fun c : Channel => onePoleReg c.lp n) hc).trans rfl
    | pre => exact (congrArg (fun c : Channel => mdlyReg c.pre n) hc).trans rfl
    | mt =>
      exact (congrArg (fun c : Channel => mtapReg c.mt n) hc).trans
        (mtapReg_setX _ x _ fun e => hn (.inr (.inl ⟨rfl, e⟩)))
    | ed =>
      exact (congrArg (fun c : Channel => diffReg c.ed n) hc).trans
        (diffReg_setX _ x _ fun e => hn (.inr (.inr (.inl ⟨_, rfl, by simp [UnitRef.inChan], e⟩))))
    | stage k =>
      exact (congrArg (fun c : Channel => mapReg c.ed.stage[k] n) hc).trans
        (mapReg_setX _ x _ k fun e => hn (.inr (.inr (.inr ⟨_, rfl, by simp [UnitRef.inChan], e⟩))))
    | line j hq => exact readReg_of_setX_line (hl j) hq hn
  · cases hq with
    | chan => rfl
    | hp => rfl
    | lp => rfl
    | pre => exact (congrArg (fun c : Channel => shownMem (onlyMem 0 m c.pre.buf _) i) hc).trans rfl
    | mt =>
      have hm0 : m = 0 := by
        by_contra h
        exact hm (.inl ⟨rfl, by omega⟩)
      subst hm0
      exact (congrArg (fun c : Channel => shownMem (mtapMem c.mt 0) i) hc).trans
        (congrArg (fun b => shownMem (some (b, Config.dlCap)) i) ((s.chan sd).mt.setX_cursor Config.chip x).2)
    | ed =>
      have hm1 : m ≠ 1 := fun e => hm (.inr ⟨_, rfl, by simp [UnitRef.inChan], e⟩)
      simp only [readMem_eq, unitMem, onlyMem, hm1, if_false]
    | stage k =>
      exact (congrArg (fun c : Channel => shownMem (onlyMem 0 m c.ed.stage[k].core.buf _) i) hc).trans
        (congrArg (fun b => shownMem (onlyMem 0 m b _) i) (hed k).buf)
    | line j hq => exact readMem_of_setX_line (hl j) hq hm

end

/-- What `CH.SETX` does (R326): its register, and the cross seed of every randomized unit, each derived again. -/
def SetsCrossSeed (s : State) (sd : Side) (v : F) (t : State) : Prop :=
  (t.chan sd).xseed = v ∧ (t.chan sd).mt.xseed = v ∧ (t.chan sd).ed.xseed = v ∧
  (∀ j, (t.line sd j).df.xseed = v ∧ (t.line sd j).df.Derived Config.chip) ∧
  (t.chan sd).mt.Coherent Config.chip ∧ (t.chan sd).ed.Derived Config.chip ∧ (s.chan sd).SameSignal (t.chan sd) ∧
  Untouched s t (crossSeedRegs sd) (fun q m _ => crossSeedMems sd q m)

theorem setsCrossSeed_setX {s : State} {sd : Side} (h : (s.chan sd).Legal) (v : F) :
    SetsCrossSeed s sd v (s.setChan sd ((s.chan sd).setX Config.chip v)) := by
  have hl (j : Fin 12) : (s.setChan sd ((s.chan sd).setX Config.chip v)).line sd j =
      { s.line sd j with df := (s.line sd j).df.setX Config.chip v } := by
    rw [State.line_setChan, if_pos rfl]
    exact Channel.setX_line _ _ v j
  have hframe := untouched_setX s sd v
  unfold SetsCrossSeed
  simp only [hl]
  rw [State.chan_setChan_self]
  exact ⟨rfl, Multitap.setX_xseed _ v _, Diffuser.setX_xseed _ v _,
    fun j => ⟨Diffuser.setX_xseed _ v _, Diffuser.setX_derived _ v (h.line j).df.seedV_wf⟩,
    (Multitap.fresh_update Config.chip (u := { (s.chan sd).mt with xseed := v })
      ⟨h.mt.seedV_wf, h.mt.tapGain_wf, h.mt.tapPos_wf⟩).coherent,
    Diffuser.setX_derived _ v h.ed.seedV_wf, (s.chan sd).setX_sameSignal _ v, hframe⟩

theorem inUnit_iff_fle {v : F} : inUnit v = true ↔ fle fzero v = true ∧ fle v fone = true := Bool.and_eq_true_iff

/-- Settles O45: either command is one update of the channel under one check. -/
theorem channelSeedsDecay : Obligations.ChannelSeedsDecay := by
  unfold Obligations.ChannelSeedsDecay
  intro s u v sd hp hu c
  obtain ⟨decay, decay_fault⟩ := checked_effect (exec_chSetDecay hp hu v) decayTOk_iff (setsDecay_setDecay s sd v)
  have hx := exec_chSetX hp hu v
  refine ⟨decay, decay_fault, fun hv hl => ?_, fun hv => ?_⟩
  · exact (checked_effect hx inUnit_iff_fle (setsCrossSeed_setX hl v)).1 hv
  · exact (checked_effect (E := fun _ => True) hx inUnit_iff_fle trivial).2 hv

end Sys2Proof.Machine
end

section
/-! The sign of products and quotients, a NaN excluded (spec/00_scope.md R11), and the argument of the feedback gain of a line
(spec/48_channel.md R315): a decay in dB over a positive time, so at most 0, possibly minus infinity. -/

namespace Sys2Proof.Machine

/-- No NaN, with the given sign bit. -/
structure Signed (neg : Bool) (v : F) : Prop where
  notNaN : isNaN v = false
  sign : signBit v = neg

theorem signed_withSign (neg : Bool) {m : Nat} (hm : m ≤ infBits) : Signed neg (withSign neg m) := by
  have hlt : m < 2 ^ 31 := hm.trans_lt (by decide)
  exact ⟨decide_eq_false (by rw [magBits_withSign neg hlt]; omega), signBit_withSign neg hlt⟩

theorem roundMag_le_infBits (num den : Nat) : roundMag num den ≤ infBits := Nat.min_le_right _ _

section
variable {a b : Bool} {x y : F}

/-- A product is no NaN where no infinity meets a zero. -/
theorem Signed.fmul (hx : Signed a x) (hy : Signed b y) (hyf : isFinite y = true) (hy0 : isZero y = false) :
    Signed (a != b) (fmul x y) := by
  unfold Machine.fmul
  extract_lets neg
  have hneg : neg = (a != b) := by rw [← hx.sign, ← hy.sign]
  rw [hx.notNaN, hy.notNaN, isInf_of_isFinite hyf, hy0, ← hneg]
  simp only [Bool.or_false, Bool.false_eq_true, if_false]
  split
  · next hinf =>
    have h0 : isZero x = false := by
      have hbits : magBits x = infBits := eq_of_beq hinf
      exact beq_false_of_ne (by rw [hbits]; decide)
    rw [h0]
    exact signed_withSign neg le_rfl
  · exact signed_withSign neg (roundMag_le_infBits _ _)

/-- A quotient by a finite value that is not zero is no NaN. -/
theorem Signed.fdiv (hx : Signed a x) (hy : Signed b y) (hyf : isFinite y = true) (hy0 : isZero y = false) :
    Signed (a != b) (fdiv x y) := by
  unfold Machine.fdiv
  extract_lets neg
  have hneg : neg = (a != b) := by rw [← hx.sign, ← hy.sign]
  rw [hx.notNaN, hy.notNaN, isInf_of_isFinite hyf, hy0, ← hneg]
  simp only [Bool.or_false, Bool.false_eq_true, if_false]
  split
  · exact signed_withSign neg le_rfl
  · exact signed_withSign neg (roundMag_le_infBits _ _)

theorem Signed.fle_fzero (h : Signed true x) : fle x fzero = true := by
  have hkey : orderKey x ≤ orderKey fzero := by
    rw [orderKey, h.sign, show orderKey fzero = 0 by decide]
    exact Int.neg_nonpos_of_nonneg (Int.natCast_nonneg _)
  simp only [fle, h.notNaN, show isNaN fzero = false by decide, Bool.not_false, Bool.true_and, decide_eq_true_eq]
  exact hkey

/-- A finite positive value. -/
theorem signed_of_toUnits_pos (hx : isFinite x = true) (h : 0 < toUnits x) : Signed false x ∧ isZero x = false := by
  refine ⟨⟨isNaN_of_isFinite hx, ?_⟩, ?_⟩
  · by_contra hs
    rw [toUnits, if_pos (by simpa using hs)] at h
    omega
  · by_contra hz
    rw [toUnits_of_isZero (by simpa using hz)] at h
    exact absurd h (lt_irrefl _)

end

theorem isFinite_of_decayTOk {t : F} (h : decayTOk t = true) : isFinite t = true ∧ 0 < toUnits t := by
  obtain ⟨hlt, hinf⟩ := decayTOk_iff.1 h
  have hnan : isNaN t = false := by
    simp only [flt, Bool.and_eq_true, Bool.not_eq_true'] at hlt
    exact hlt.1.2
  have hfin : isFinite t = true := by
    rw [isFinite_iff]
    have h1 : ¬ infBits < magBits t := of_decide_eq_false hnan
    have h2 : magBits t ≠ infBits := ne_of_beq_false hinf
    omega
  exact ⟨hfin, by simpa using (flt_iff (by decide) hfin).1 hlt⟩

/-- R315: the exponent of the gain of a line is at most 0. -/
theorem fle_decayExponent {dly : Nat} (hge : 1 ≤ dly) (hle : dly ≤ 2 ^ 24) {t : F} (ht : decayTOk t = true) :
    fle (fdiv (fmul (fdiv (itof dly) t) Config.decayDb) (itof 20)) fzero = true := by
  obtain ⟨hdf, hdu⟩ := itof_exact hle
  obtain ⟨htf, htu⟩ := isFinite_of_decayTOk ht
  obtain ⟨hd, -⟩ := signed_of_toUnits_pos hdf (by rw [hdu]; positivity)
  obtain ⟨hts, ht0⟩ := signed_of_toUnits_pos htf htu
  have hdb : Signed true Config.decayDb := ⟨by decide, by decide⟩
  have h20 : Signed false (itof 20) := ⟨by decide, by decide⟩
  have hq : Signed false (fdiv (itof dly) t) := hd.fdiv hts htf ht0
  have hp : Signed true (fmul (fdiv (itof dly) t) Config.decayDb) := hq.fmul hdb (by decide) (by decide)
  exact (hp.fdiv h20 (by decide) (by decide)).fle_fzero

/-- A value at most 0 is finite or minus infinity. -/
theorem isFinite_or_eq_of_fle_fzero {d : F} (h : fle d fzero = true) : isFinite d = true ∨ d = 0xFF800000#32 := by
  simp only [fle, Bool.and_eq_true, Bool.not_eq_true', decide_eq_true_eq, show orderKey fzero = 0 by decide] at h
  obtain ⟨⟨hnan, -⟩, hkey⟩ := h
  by_cases hf : isFinite d = true
  · exact .inl hf
  · right
    have h1 : ¬ infBits < magBits d := of_decide_eq_false hnan
    have h2 : ¬ magBits d < infBits := fun hlt => hf ((isFinite_iff d).2 hlt)
    have hmag : magBits d = infBits := by omega
    have hsign : signBit d = true := by
      by_contra hs
      rw [orderKey, if_neg hs, hmag] at hkey
      exact absurd hkey (by decide)
    rw [← withSign_signBit_magBits d, hmag, hsign]
    rfl

end Sys2Proof.Machine
end

section
/-! The legal values of every unit (spec/10_state.md R25 to R35) under its operations. `Prepared` is what a configuration
needs of a unit to make it legal, a blank unit of the reset included (spec/70_reset_and_hazards.md R430): no tap is asked
for, because `TAPCALC` writes them (spec/43_allpass.md R196). -/

namespace Sys2Proof.Machine

/-! ## A modulated delay -/

/-- The signal state of an MDLY is legal: phase, counter, cursor and buffer. -/
structure ModDelay.Prepared (cap : Nat) (u : ModDelay) : Prop where
  phase_ge : fle fzero u.phase = true
  phase_lt : flt u.phase fone = true
  cnt_le : u.cnt ≤ Config.modPeriod
  widx_lt : u.widx < cap
  buf_wf : Memory.wf u.buf = true
  buf_within : memWithin cap u.buf = true

section
variable {cfg : Config.Params} {cap : Nat} {u : ModDelay}

theorem ModDelay.Legal.prepared (h : u.Legal cap) : u.Prepared cap :=
  ⟨h.phase_ge, h.phase_lt, h.cnt_le, h.widx_lt, h.buf_wf, h.buf_within⟩

theorem tapCalc_delayB (dly : Nat) (modA phase : F) :
    (tapCalc cfg dly modA phase).delayB = (tapCalc cfg dly modA phase).delayA + 1 := by
  simp only [tapCalc]

/-- `TAPCALC` leaves the second tap one sample behind the first (R196). -/
theorem ModDelay.Prepared.retap (h : u.Prepared cap) (hge : 1 ≤ u.dly) (hle : u.dly ≤ cap - 2) :
    (u.retap cfg).Legal cap := by
  unfold ModDelay.retap
  exact ⟨hge, hle, h.phase_ge, h.phase_lt, h.cnt_le, tapCalc_delayB _ _ _, h.widx_lt, h.buf_wf, h.buf_within⟩

theorem ModDelay.Prepared.setDly (h : u.Prepared cap) {n : Nat} (hn : delayOk cap n = true) :
    (u.setDly cfg n).Legal cap := by
  obtain ⟨hge, hle⟩ := delayOk_iff.1 hn
  exact ModDelay.Prepared.retap ⟨h.phase_ge, h.phase_lt, h.cnt_le, h.widx_lt, h.buf_wf, h.buf_within⟩ hge hle

theorem ModDelay.Legal.setModA (h : u.Legal cap) (a : F) : (u.setModA cfg a).Legal cap :=
  ModDelay.Prepared.retap (u := { u with modA := a })
    ⟨h.phase_ge, h.phase_lt, h.cnt_le, h.widx_lt, h.buf_wf, h.buf_within⟩ h.dly_ge h.dly_le

theorem ModDelay.Legal.setModR (h : u.Legal cap) (r : F) : (u.setModR r).Legal cap :=
  ⟨h.dly_ge, h.dly_le, h.phase_ge, h.phase_lt, h.cnt_le, h.delayB_eq, h.widx_lt, h.buf_wf, h.buf_within⟩

theorem ModDelay.Legal.clear (h : u.Legal cap) : (u.clear cap).Legal cap :=
  ⟨h.dly_ge, h.dly_le, h.phase_ge, h.phase_lt, h.cnt_le, h.delayB_eq, h.widx_lt, wf_memClear h.buf_wf _,
    memWithin_memClear h.buf_within⟩

/-- The phase stays in [0, 1): what rounds to 1 is replaced by 0 (R197). -/
theorem nextPhase_range (phase modR : F) :
    fle fzero (nextPhase phase modR) = true ∧ flt (nextPhase phase modR) fone = true := by
  unfold nextPhase
  extract_lets ph ph'
  split
  · next h => exact Bool.and_eq_true_iff.1 h
  · decide

/-- After the update at the start of a sample the counter has room for that sample. -/
theorem ModDelay.Legal.tick (h : u.Legal cap) :
    (u.tick cfg).Legal cap ∧ (u.tick cfg).cnt < Config.modPeriod := by
  unfold ModDelay.tick
  split
  · obtain ⟨hge, hlt⟩ := nextPhase_range u.phase u.modR
    exact ⟨⟨h.dly_ge, h.dly_le, hge, hlt, Nat.zero_le _, tapCalc_delayB _ _ _, h.widx_lt, h.buf_wf, h.buf_within⟩,
      (by decide : 0 < Config.modPeriod)⟩
  · next hcnt => exact ⟨h, not_le.1 hcnt⟩

theorem ModDelay.Legal.withBuf (h : u.Legal cap) (v : Word) :
    ({ u with buf := memWrite u.buf u.widx v } : ModDelay).Legal cap :=
  ⟨h.dly_ge, h.dly_le, h.phase_ge, h.phase_lt, h.cnt_le, h.delayB_eq, h.widx_lt, wf_memWrite h.buf_wf _ _,
    memWithin_memWrite h.buf_within h.widx_lt _⟩

theorem ModDelay.Legal.withCnt (h : u.Legal cap) {n : Nat} (hn : n ≤ Config.modPeriod) :
    ({ u with cnt := n } : ModDelay).Legal cap :=
  ⟨h.dly_ge, h.dly_le, h.phase_ge, h.phase_lt, hn, h.delayB_eq, h.widx_lt, h.buf_wf, h.buf_within⟩

theorem ModDelay.Legal.withWidx (h : u.Legal cap) {n : Nat} (hn : n < cap) :
    ({ u with widx := n } : ModDelay).Legal cap :=
  ⟨h.dly_ge, h.dly_le, h.phase_ge, h.phase_lt, h.cnt_le, h.delayB_eq, hn, h.buf_wf, h.buf_within⟩

theorem ModDelay.LegalDelay.step (h : u.LegalDelay) (v : F) : (mdlyStep cfg u v).2.LegalDelay where
  core := by
    obtain ⟨hw, hcnt⟩ := (h.core.withBuf v).tick (cfg := cfg)
    exact (hw.withCnt hcnt).withWidx (advance_lt _ (by decide))
  modA := (mdlyStep_settings cfg u v).2.1 ▸ h.modA
  modR := (mdlyStep_settings cfg u v).2.2 ▸ h.modR

theorem ModDelay.LegalDelay.setDly (h : u.LegalDelay) {n : Nat} (hn : delayOk Config.dlCap n = true) :
    (u.setDly cfg n).LegalDelay := ⟨h.core.prepared.setDly hn, h.modA, h.modR⟩

theorem ModDelay.LegalDelay.setModA (h : u.LegalDelay) {a : F} (ha : modAOk Config.dlCap a = true) :
    (u.setModA cfg a).LegalDelay := ⟨h.core.setModA a, ha, h.modR⟩

theorem ModDelay.LegalDelay.setModR (h : u.LegalDelay) {r : F} (hr : modROk r = true) : (u.setModR r).LegalDelay :=
  ⟨h.core.setModR r, h.modA, hr⟩

theorem ModDelay.LegalDelay.clear (h : u.LegalDelay) : (u.clear Config.dlCap).LegalDelay := ⟨h.core.clear, h.modA, h.modR⟩

theorem ModDelay.Prepared.apply (h : u.Prepared Config.dlCap) {k : Config.DelayConfig} (hk : LegalDelayConfig k) :
    (applyDelay cfg u k).LegalDelay := ⟨((h.setDly hk.dly).setModA _).setModR _, hk.modA, hk.modR⟩

end

/-! ## An all-pass stage -/

section
variable {cfg : Config.Params} {u : Allpass}

theorem Allpass.Legal.setDly (h : u.Legal) {n : Nat} (hn : delayOk Config.apCap n = true) : (u.setDly cfg n).Legal :=
  ⟨h.core.prepared.setDly hn, h.fb⟩

theorem Allpass.Legal.setFb (h : u.Legal) {g : F} (hg : isFinite g = true) : (u.setFb g).Legal := ⟨h.core, hg⟩

theorem Allpass.Legal.setModA (h : u.Legal) (a : F) : (u.setModA cfg a).Legal := ⟨h.core.setModA a, h.fb⟩

theorem Allpass.Legal.setModR (h : u.Legal) (r : F) : (u.setModR r).Legal := ⟨h.core.setModR r, h.fb⟩

theorem Allpass.Legal.withFlags (h : u.Legal) (f : BitVec 2) : ({ u with flags := f } : Allpass).Legal := ⟨h.core, h.fb⟩

theorem Allpass.Legal.clear (h : u.Legal) : u.clear.Legal := ⟨h.core.clear, h.fb⟩

theorem Allpass.Legal.read (h : u.Legal) : (u.read cfg).2.Legal Config.apCap := by
  unfold Allpass.read
  split
  · obtain ⟨hc, hcnt⟩ := h.core.tick (cfg := cfg)
    exact hc.withCnt hcnt
  · exact h.core

theorem Allpass.Legal.step (h : u.Legal) (v : F) : (mapStep cfg u v).2.Legal :=
  ⟨((Allpass.Legal.read h (cfg := cfg)).withBuf _).withWidx (advance_lt _ (by decide)), h.fb⟩

end

/-! ## A diffuser -/

/-- A memory written whole from its first word on stays inside its capacity. -/
theorem memWithin_writeAll {cap : Nat} {m : Mem} (h : memWithin cap m = true) {vs : List Word} (hvs : vs.length = cap) :
    memWithin cap (memWriteList m 0 vs) = true := memWithin_memWriteList h (by omega)

/-- A derived stage delay is a legal delay (R221). -/
theorem stageDelay_range (cfg : Config.Params) (dly : Nat) (r : F) :
    1 ≤ stageDelay cfg dly r ∧ stageDelay cfg dly r ≤ Config.apCap - 2 := by
  unfold stageDelay
  extract_lets x
  split
  · decide
  split
  · decide
  next hone hlong =>
    have hx : inRange fone (itof (Config.apCap - 2 : Nat)) x = true :=
      inRange_of_not_fle (by decide) (by simpa using hone) hlong
    obtain ⟨hxf, hge, hle⟩ := (inRange_iff (by decide) (by decide)).1 hx
    obtain ⟨hfloor, hfloor'⟩ := ftoiFloor_bounds hxf
    rw [toUnits_itof_longest_stage] at hle
    rw [toUnits_fone] at hge
    show 1 ≤ (ftoiFloor x).toNat ∧ (ftoiFloor x).toNat ≤ 19198
    omega

/-- The registers of a DIFF and its random values are legal, and its stages prepared. -/
structure Diffuser.Prepared (d : Diffuser) : Prop where
  stages : d.stages ≤ Config.maxStages
  dly : delayOk Config.apCap d.dly = true
  fb : isFinite d.fb = true
  modA : modAOk (Config.apCap / 2) d.modA = true
  modR : diffModROk d.modR = true
  xseed : inUnit d.xseed = true
  seedV_wf : Memory.wf d.seedV = true
  seedV_within : memWithin Config.diffDraws d.seedV = true
  core : ∀ k : Fin 12, d.stage[k].core.Prepared Config.apCap
  stageFb : ∀ k : Fin 12, isFinite d.stage[k].fb = true

section
variable {cfg : Config.Params} {d : Diffuser}

theorem Diffuser.Legal.prepared (h : d.Legal) : d.Prepared :=
  ⟨h.stages, h.dly, h.fb, h.modA, h.modR, h.xseed, h.seedV_wf, h.seedV_within, fun k => (h.stage k).core.prepared,
    fun k => (h.stage k).fb⟩

theorem deriveStage_legal {a : Allpass} (hc : a.core.Prepared Config.apCap) (hfb : isFinite a.fb = true) (k : Nat) :
    (deriveStage cfg d k a).Legal := by
  unfold deriveStage
  obtain ⟨hge, hle⟩ := stageDelay_range cfg d.dly (memRead d.seedV k)
  refine ⟨ModDelay.Prepared.retap ?_ hge hle, hfb⟩
  exact ⟨hc.phase_ge, hc.phase_lt, hc.cnt_le, hc.widx_lt, hc.buf_wf, hc.buf_within⟩

/-- R223: the update makes a prepared diffuser legal. -/
theorem Diffuser.Prepared.update (h : d.Prepared) : (d.update cfg).Legal := by
  have hwf : Memory.wf (d.update cfg).seedV = true := by
    rw [Diffuser.update_seedV]
    exact wf_memWriteList h.seedV_wf _ _
  have hwithin : memWithin Config.diffDraws (d.update cfg).seedV = true := by
    rw [Diffuser.update_seedV]
    exact memWithin_writeAll h.seedV_within (length_generateCross _ _ _ _)
  have hstage : ∀ k : Fin 12, (d.update cfg).stage[k].Legal := fun k => by
    rw [Diffuser.update_stage]
    exact deriveStage_legal (h.core k) (h.stageFb k) k.val
  obtain ⟨m, v, he⟩ := d.exists_update_eq cfg
  rw [he] at hwf hwithin hstage ⊢
  exact ⟨h.stages, h.dly, h.fb, h.modA, h.modR, h.xseed, hwf, hwithin, hstage⟩

theorem Diffuser.Legal.setStages (h : d.Legal) {n : Nat} (hn : n ≤ Config.maxStages) : (d.setStages n).Legal :=
  ⟨hn, h.dly, h.fb, h.modA, h.modR, h.xseed, h.seedV_wf, h.seedV_within, h.stage⟩

theorem Diffuser.Prepared.setStages (h : d.Prepared) {n : Nat} (hn : n ≤ Config.maxStages) : (d.setStages n).Prepared :=
  ⟨hn, h.dly, h.fb, h.modA, h.modR, h.xseed, h.seedV_wf, h.seedV_within, h.core, h.stageFb⟩

theorem Diffuser.Prepared.setDly (h : d.Prepared) {n : Nat} (hn : delayOk Config.apCap n = true) :
    (d.setDly cfg n).Legal :=
  Diffuser.Prepared.update
    ⟨h.stages, hn, h.fb, h.modA, h.modR, h.xseed, h.seedV_wf, h.seedV_within, h.core, h.stageFb⟩

theorem Diffuser.Prepared.setModA (h : d.Prepared) {a : F} (ha : modAOk (Config.apCap / 2) a = true) :
    (d.setModA cfg a).Legal :=
  Diffuser.Prepared.update
    ⟨h.stages, h.dly, h.fb, ha, h.modR, h.xseed, h.seedV_wf, h.seedV_within, h.core, h.stageFb⟩

theorem Diffuser.Prepared.setModR (h : d.Prepared) {r : F} (hr : diffModROk r = true) : (d.setModR cfg r).Legal :=
  Diffuser.Prepared.update
    ⟨h.stages, h.dly, h.fb, h.modA, hr, h.xseed, h.seedV_wf, h.seedV_within, h.core, h.stageFb⟩

theorem Diffuser.Prepared.setSeed (h : d.Prepared) (seed : Word) : (d.setSeed cfg seed).Legal :=
  Diffuser.Prepared.update
    ⟨h.stages, h.dly, h.fb, h.modA, h.modR, h.xseed, h.seedV_wf, h.seedV_within, h.core, h.stageFb⟩

theorem Diffuser.Prepared.setX (h : d.Prepared) {c : F} (hc : inUnit c = true) : (d.setX cfg c).Legal :=
  Diffuser.Prepared.update
    ⟨h.stages, h.dly, h.fb, h.modA, h.modR, hc, h.seedV_wf, h.seedV_within, h.core, h.stageFb⟩

theorem Diffuser.Legal.mapStages (h : d.Legal) {g : F} (hg : isFinite g = true) (b : BitVec 2) {f : Allpass → Allpass}
    (hf : ∀ a, a.Legal → (f a).Legal) : ({ d with fb := g, flags := b, stage := vecMap f d.stage } : Diffuser).Legal :=
  ⟨h.stages, h.dly, hg, h.modA, h.modR, h.xseed, h.seedV_wf, h.seedV_within, fun k => by
    rw [getElem_vecMap]
    exact hf _ (h.stage k)⟩

theorem Diffuser.Legal.setFb (h : d.Legal) {g : F} (hg : isFinite g = true) : (d.setFb g).Legal :=
  h.mapStages hg d.flags fun _ ha => ha.setFb hg

theorem Diffuser.Legal.setInterp (h : d.Legal) (b : Bool) : (d.setInterp b).Legal :=
  h.mapStages h.fb _ fun _ ha => ha.withFlags _

theorem Diffuser.Legal.setModEn (h : d.Legal) (b : Bool) : (d.setModEn b).Legal :=
  h.mapStages h.fb _ fun _ ha => ha.withFlags _

theorem Diffuser.Legal.clear (h : d.Legal) : d.clear.Legal := h.mapStages h.fb d.flags fun _ ha => ha.clear

theorem Diffuser.Legal.setStage (h : d.Legal) (k : Fin 12) {a : Allpass} (ha : a.Legal) : (d.setStage k a).Legal :=
  ⟨h.stages, h.dly, h.fb, h.modA, h.modR, h.xseed, h.seedV_wf, h.seedV_within, fun j => by
    rw [Diffuser.setStage_stage, vec_set_get]
    split
    · exact ha
    · exact h.stage j⟩

theorem Diffuser.Legal.step (h : d.Legal) (v : F) : (diffStep cfg d v).2.Legal :=
  diffStep_induction (fun _ k v hd => hd.setStage k ((hd.stage k).step v)) h v

/-- The eight settings of `ApplyConfig` make a prepared diffuser legal (R363). -/
theorem Diffuser.Prepared.apply (h : d.Prepared) {k : Config.DiffuserConfig} (hk : LegalDiffuserConfig k) :
    (applyDiffuser cfg d k).Legal := by
  have h1 : (((d.setStages k.stages).setDly cfg k.dly).setFb k.fb).Legal :=
    ((h.setStages (stagesOk_iff.1 hk.stages)).setDly hk.dly).setFb hk.fb
  exact ((((h1.prepared.setModA hk.modA).prepared.setModR hk.modR).prepared.setSeed k.seed).setInterp _).setModEn _

end

/-! ## A multitap delay -/

section
variable {cfg : Config.Params} {u : Multitap}

theorem Multitap.Legal.withSettings (h : u.Legal) {n k : Nat} {x y : F} (hn : tapsOk n = true) (hk : lenOk k = true)
    (hx : inUnit x = true) (hy : inUnit y = true) (seed : Word) :
    ({ u with taps := n, len := k, decay := x, seed := seed, xseed := y } : Multitap).Legal :=
  ⟨hn, hk, hx, hy, h.widx, h.buf_wf, h.buf_within, h.seedV_wf, h.seedV_within, h.tapGain_wf, h.tapGain_within,
    h.tapPos_wf, h.tapPos_within⟩

/-- Random values and tap attributes written anew, each inside its memory. -/
theorem Multitap.Legal.update (h : u.Legal) : (u.update cfg).Legal := by
  have hseedV_wf : Memory.wf (u.update cfg).seedV = true := by
    rw [Multitap.update_seedV]
    exact wf_memWriteList h.seedV_wf _ _
  have hseedV : memWithin (3 * Config.maxTaps) (u.update cfg).seedV = true := by
    rw [Multitap.update_seedV]
    exact memWithin_writeAll h.seedV_within (length_generateCross _ _ _ _)
  have htapGain_wf : Memory.wf (u.update cfg).tapGain = true := by
    rw [Multitap.update_tapGain]
    exact wf_memWriteList h.tapGain_wf _ _
  have htapGain : memWithin Config.maxTaps (u.update cfg).tapGain = true := by
    rw [Multitap.update_tapGain]
    exact memWithin_writeAll h.tapGain_within (by rw [List.length_map, List.length_range])
  have htapPos_wf : Memory.wf (u.update cfg).tapPos = true := by
    rw [Multitap.update_tapPos]
    exact wf_memWriteList h.tapPos_wf _ _
  have htapPos : memWithin Config.maxTaps (u.update cfg).tapPos = true := by
    rw [Multitap.update_tapPos]
    exact memWithin_writeAll h.tapPos_within (by rw [List.length_map, List.length_range])
  obtain ⟨a, b, c, he⟩ := u.exists_update_eq cfg
  rw [he] at hseedV_wf hseedV htapGain_wf htapGain htapPos_wf htapPos ⊢
  exact ⟨h.taps, h.len, h.decay, h.xseed, h.widx, h.buf_wf, h.buf_within, hseedV_wf, hseedV, htapGain_wf, htapGain,
    htapPos_wf, htapPos⟩

theorem Multitap.Legal.setTaps (h : u.Legal) {n : Nat} (hn : tapsOk n = true) : (u.setTaps n).Legal :=
  h.withSettings hn h.len h.decay h.xseed _

theorem Multitap.Legal.setLen (h : u.Legal) {n : Nat} (hn : lenOk n = true) : (u.setLen n).Legal :=
  h.withSettings h.taps hn h.decay h.xseed _

theorem Multitap.Legal.setDecay (h : u.Legal) {d : F} (hd : inUnit d = true) : (u.setDecay d).Legal :=
  h.withSettings h.taps h.len hd h.xseed _

theorem Multitap.Legal.setSeed (h : u.Legal) (seed : Word) : (u.setSeed cfg seed).Legal :=
  (h.withSettings h.taps h.len h.decay h.xseed seed).update

theorem Multitap.Legal.setX (h : u.Legal) {c : F} (hc : inUnit c = true) : (u.setX cfg c).Legal :=
  (h.withSettings h.taps h.len h.decay hc u.seed).update

theorem Multitap.Legal.step (h : u.Legal) (v : F) : (mtapStep cfg u v).2.Legal :=
  ⟨h.taps, h.len, h.decay, h.xseed, advance_lt _ (by decide), wf_memWrite h.buf_wf _ _,
    memWithin_memWrite h.buf_within h.widx _, h.seedV_wf, h.seedV_within, h.tapGain_wf, h.tapGain_within, h.tapPos_wf,
    h.tapPos_within⟩

theorem Multitap.Legal.clear (h : u.Legal) : u.clear.Legal :=
  ⟨h.taps, h.len, h.decay, h.xseed, h.widx, wf_memClear h.buf_wf _, memWithin_memClear h.buf_within, h.seedV_wf,
    h.seedV_within, h.tapGain_wf, h.tapGain_within, h.tapPos_wf, h.tapPos_within⟩

end

/-! ## The filters -/

section
variable {cfg : Config.Params}

theorem OnePole.legal_setFc (u : OnePole) {f : F} (hf : isFinite f = true) : (u.setFc cfg f).Legal := ⟨hf⟩

theorem OnePole.Legal.lp1Step {u : OnePole} (h : u.Legal) (v : F) : (lp1Step cfg u v).2.Legal := ⟨h.fc⟩

theorem OnePole.Legal.hp1Step {u : OnePole} (h : u.Legal) (v : F) : (hp1Step cfg u v).2.Legal :=
  ⟨((OnePole.SameSettings.refl u).hp1Step v).fc ▸ h.fc⟩

theorem OnePole.Legal.clear {u : OnePole} (h : u.Legal) : u.clear.Legal := ⟨h.fc⟩

theorem Shelf.Legal.setF {u : Shelf} (h : u.Legal) (k : Config.ShelfKind) {f : F} (hf : isFinite f = true) :
    (u.setF cfg k f).Legal := ⟨hf, h.gain⟩

theorem Shelf.Legal.setG {u : Shelf} (h : u.Legal) (k : Config.ShelfKind) {g : F} (hg : isNaN g = false) :
    (u.setG cfg k g).Legal := ⟨h.freq, inRange_clampGain hg⟩

/-- Both settings make any shelf legal (R363). -/
theorem Shelf.legal_set (u : Shelf) (k : Config.ShelfKind) {f g : F} (hf : isFinite f = true)
    (hg : inRange 0xC2700000#32 0x42700000#32 g = true) : ((u.setF cfg k f).setG cfg k g).Legal :=
  ⟨hf, inRange_clampGain (isNaN_of_isFinite ((inRange_iff (by decide) (by decide)).1 hg).1)⟩

theorem Shelf.Legal.step {u : Shelf} (h : u.Legal) (v : F) : (shelfStep u v).2.Legal := ⟨h.freq, h.gain⟩

theorem Shelf.Legal.clear {u : Shelf} (h : u.Legal) : u.clear.Legal := ⟨h.freq, h.gain⟩

end

end Sys2Proof.Machine
end

section
/-! The legal values of a delay line and of a channel (spec/10_state.md R33, R34) under their operations, and what
`ApplyConfig` makes of them (spec/49_engine.md R363). -/

namespace Sys2Proof.Machine

/-! ## A delay line -/

section
variable {cfg : Config.Params} {l : DelayLine}

/-- New sub-units, a new gain and new flags leave the queue as it is. -/
theorem DelayLine.Legal.withUnits (h : l.Legal) {d : ModDelay} {df : Diffuser} {ls hs : Shelf} {damp : OnePole}
    (hd : d.LegalDelay) (hdf : df.Legal) (hls : ls.Legal) (hhs : hs.Legal) (hdamp : damp.Legal) (g : F) (m : BitVec 5) :
    ({ l with fb := g, flags := m, delay := d, df := df, ls := ls, hs := hs, damp := damp } : DelayLine).Legal :=
  ⟨⟨h.queue.rd, h.queue.count, h.queue.wr⟩, h.q_wf, h.q_within, hd, hdf, hls, hhs, hdamp⟩

theorem DelayLine.Legal.setFb (h : l.Legal) (g : F) : (l.setFb g).Legal :=
  h.withUnits h.delay h.df h.ls h.hs h.damp g l.flags

theorem DelayLine.Legal.setFlags (h : l.Legal) (m : BitVec 5) : (l.setFlags m).Legal :=
  h.withUnits h.delay h.df h.ls h.hs h.damp l.fb m

theorem DelayLine.Legal.withDelay (h : l.Legal) {d : ModDelay} (hd : d.LegalDelay) : ({ l with delay := d } : DelayLine).Legal :=
  h.withUnits hd h.df h.ls h.hs h.damp l.fb l.flags

theorem DelayLine.Legal.withDf (h : l.Legal) {d : Diffuser} (hd : d.Legal) : ({ l with df := d } : DelayLine).Legal :=
  h.withUnits h.delay hd h.ls h.hs h.damp l.fb l.flags

theorem DelayLine.Legal.withLs (h : l.Legal) {f : Shelf} (hf : f.Legal) : ({ l with ls := f } : DelayLine).Legal :=
  h.withUnits h.delay h.df hf h.hs h.damp l.fb l.flags

theorem DelayLine.Legal.withHs (h : l.Legal) {f : Shelf} (hf : f.Legal) : ({ l with hs := f } : DelayLine).Legal :=
  h.withUnits h.delay h.df h.ls hf h.damp l.fb l.flags

theorem DelayLine.Legal.withDamp (h : l.Legal) {f : OnePole} (hf : f.Legal) : ({ l with damp := f } : DelayLine).Legal :=
  h.withUnits h.delay h.df h.ls h.hs hf l.fb l.flags

theorem DelayLine.Legal.push (h : l.Legal) (v : F) : (l.push v).Legal := by
  have hq := DelayLine.QueueOk.push h.queue v
  unfold DelayLine.push at hq ⊢
  split at hq
  · next hlt =>
    rw [if_pos hlt]
    have hwr : l.qWr < Config.fbqCap := h.queue.wr ▸ Nat.mod_lt _ (by decide)
    exact ⟨hq, wf_memWrite h.q_wf _ _, memWithin_memWrite h.q_within hwr _, h.delay, h.df, h.ls, h.hs, h.damp⟩
  · next hfull =>
    rwa [if_neg hfull]

theorem DelayLine.Legal.pop (h : l.Legal) : l.pop.2.Legal := by
  have hq := DelayLine.QueueOk.pop h.queue
  unfold DelayLine.pop at hq ⊢
  split at hq
  · next hpos =>
    rw [if_pos hpos]
    exact ⟨hq, h.q_wf, h.q_within, h.delay, h.df, h.ls, h.hs, h.damp⟩
  · next hempty =>
    rwa [if_neg hempty]

/-- A block keeps a line legal: each of its parts does. -/
theorem DelayLine.legal_kept (cfg : Config.Params) : DelayLine.Kept cfg DelayLine.Legal where
  pop _ h := h.pop
  push _ v h := h.push v
  delay _ v h := h.withDelay (h.delay.step v)
  df _ v _ h := h.withDf (h.df.step v)
  ls _ v _ h := h.withLs (h.ls.step v)
  hs _ v _ h := h.withHs (h.hs.step v)
  damp _ v _ h := h.withDamp (h.damp.lp1Step v)

theorem DelayLine.Legal.proc (h : l.Legal) (x : List F) : (dlineProc cfg l x).2.Legal := (DelayLine.legal_kept cfg).proc h x

theorem DelayLine.Legal.clear (h : l.Legal) : l.clear.Legal :=
  ⟨⟨(by decide : 0 < Config.fbqCap), Nat.zero_le _, rfl⟩, wf_memClear h.q_wf _, memWithin_memClear h.q_within, h.delay.clear,
    h.df.clear, h.ls.clear, h.hs.clear, h.damp.clear⟩

/-- The queue is legal, and the units that keep a signal state are prepared: the filters need nothing. -/
structure DelayLine.Prepared (l : DelayLine) : Prop where
  queue : l.QueueOk
  q_wf : Memory.wf l.q = true
  q_within : memWithin Config.fbqCap l.q = true
  delay : l.delay.Prepared Config.dlCap
  df : l.df.Prepared

theorem DelayLine.Legal.prepared (h : l.Legal) : l.Prepared :=
  ⟨h.queue, h.q_wf, h.q_within, h.delay.core.prepared, h.df.prepared⟩

theorem DelayLine.Prepared.apply (h : l.Prepared) {k : Config.LineConfig} (hk : LegalLineConfig k) :
    (applyLine cfg l k).Legal :=
  ⟨⟨h.queue.rd, h.queue.count, h.queue.wr⟩, h.q_wf, h.q_within, h.delay.apply hk.delay, h.df.apply hk.df,
    Shelf.legal_set l.ls .low hk.lsF hk.lsG, Shelf.legal_set l.hs .high hk.hsF hk.hsG, OnePole.legal_setFc l.damp hk.dampFc⟩

/-- The gain of a decay time is `fpow10` at an argument up to 0 (R315). -/
theorem lineFb_eq_fpow10 (h : l.Legal) {t : F} (ht : decayTOk t = true) :
    ∃ d, fle d fzero = true ∧ lineFb cfg l.delay.dly t = cfg.fpow10 d :=
  ⟨_, fle_decayExponent h.delay.core.dly_ge (h.delay.core.dly_le.trans (by decide)) ht, rfl⟩

end

/-! ## A channel -/

section
variable {cfg : Config.Params} {c : Channel}

theorem Channel.Legal.withUnits (h : c.Legal) {hp lp : OnePole} {pre : ModDelay} {mt : Multitap} {ed : Diffuser}
    {ls : Vector DelayLine 12} (hhp : hp.Legal) (hlp : lp.Legal) (hpre : pre.LegalDelay) (hmt : mt.Legal) (hed : ed.Legal)
    (hls : ∀ j : Fin 12, ls[j].Legal) :
    ({ c with hp := hp, lp := lp, pre := pre, mt := mt, ed := ed, line := ls } : Channel).Legal :=
  ⟨h.inMix, h.lines, h.decayT, h.dry, h.early, h.lineOut, h.xseed, hhp, hlp, hpre, hmt, hed, hls⟩

theorem Channel.Legal.withHp (h : c.Legal) {f : OnePole} (hf : f.Legal) : ({ c with hp := f } : Channel).Legal :=
  h.withUnits hf h.lp h.pre h.mt h.ed h.line

theorem Channel.Legal.withLp (h : c.Legal) {f : OnePole} (hf : f.Legal) : ({ c with lp := f } : Channel).Legal :=
  h.withUnits h.hp hf h.pre h.mt h.ed h.line

theorem Channel.Legal.withPre (h : c.Legal) {u : ModDelay} (hu : u.LegalDelay) : ({ c with pre := u } : Channel).Legal :=
  h.withUnits h.hp h.lp hu h.mt h.ed h.line

theorem Channel.Legal.withMt (h : c.Legal) {u : Multitap} (hu : u.Legal) : ({ c with mt := u } : Channel).Legal :=
  h.withUnits h.hp h.lp h.pre hu h.ed h.line

theorem Channel.Legal.withEd (h : c.Legal) {d : Diffuser} (hd : d.Legal) : ({ c with ed := d } : Channel).Legal :=
  h.withUnits h.hp h.lp h.pre h.mt hd h.line

theorem Channel.Legal.setLine (h : c.Legal) (j : Fin 12) {l : DelayLine} (hl : l.Legal) : (c.setLine j l).Legal :=
  h.withUnits h.hp h.lp h.pre h.mt h.ed fun i => by
    rw [vec_set_get]
    split
    · exact hl
    · exact h.line i

theorem Channel.Legal.setInMix (h : c.Legal) {g : F} (hg : isFinite g = true) : (c.setInMix g).Legal :=
  ⟨hg, h.lines, h.decayT, h.dry, h.early, h.lineOut, h.xseed, h.hp, h.lp, h.pre, h.mt, h.ed, h.line⟩

theorem Channel.Legal.setFlags (h : c.Legal) (m : BitVec 4) : (c.setFlags m).Legal :=
  ⟨h.inMix, h.lines, h.decayT, h.dry, h.early, h.lineOut, h.xseed, h.hp, h.lp, h.pre, h.mt, h.ed, h.line⟩

theorem Channel.Legal.setLines (h : c.Legal) {n : Nat} (hn : linesOk n = true) : (c.setLines n).Legal :=
  ⟨h.inMix, hn, h.decayT, h.dry, h.early, h.lineOut, h.xseed, h.hp, h.lp, h.pre, h.mt, h.ed, h.line⟩

theorem Channel.Legal.setDry (h : c.Legal) {g : F} (hg : isFinite g = true) : (c.setDry g).Legal :=
  ⟨h.inMix, h.lines, h.decayT, hg, h.early, h.lineOut, h.xseed, h.hp, h.lp, h.pre, h.mt, h.ed, h.line⟩

theorem Channel.Legal.setEarly (h : c.Legal) {g : F} (hg : isFinite g = true) : (c.setEarly g).Legal :=
  ⟨h.inMix, h.lines, h.decayT, h.dry, hg, h.lineOut, h.xseed, h.hp, h.lp, h.pre, h.mt, h.ed, h.line⟩

theorem Channel.Legal.setLineOut (h : c.Legal) {g : F} (hg : isFinite g = true) : (c.setLineOut g).Legal :=
  ⟨h.inMix, h.lines, h.decayT, h.dry, h.early, hg, h.xseed, h.hp, h.lp, h.pre, h.mt, h.ed, h.line⟩

theorem Channel.Legal.setDecay (h : c.Legal) {t : F} (ht : decayTOk t = true) : (c.setDecay cfg t).Legal :=
  ⟨h.inMix, h.lines, ht, h.dry, h.early, h.lineOut, h.xseed, h.hp, h.lp, h.pre, h.mt, h.ed, fun j => by
    rw [Channel.setDecay_line]
    exact (h.line j).setFb _⟩

theorem Channel.Legal.setX (h : c.Legal) {x : F} (hx : inUnit x = true) : (c.setX cfg x).Legal :=
  ⟨h.inMix, h.lines, h.decayT, h.dry, h.early, h.lineOut, hx, h.hp, h.lp, h.pre, h.mt.setX hx, h.ed.prepared.setX hx,
    fun j => by
      rw [Channel.setX_line]
      exact (h.line j).withDf ((h.line j).df.prepared.setX hx)⟩

theorem Channel.Legal.clear (h : c.Legal) : c.clear.Legal :=
  h.withUnits h.hp.clear h.lp.clear h.pre.clear h.mt.clear h.ed.clear fun j => by
    rw [getElem_vecMap]
    exact (h.line j).clear

/-- A block keeps a channel legal: each of its parts does. -/
theorem Channel.legal_kept (cfg : Config.Params) : Channel.Kept cfg Channel.Legal where
  hp _ v _ h := h.withHp (h.hp.hp1Step v)
  lp _ v _ h := h.withLp (h.lp.lp1Step v)
  pre _ v h := h.withPre (h.pre.step v)
  mt _ v _ h := h.withMt (h.mt.step v)
  ed _ v _ h := h.withEd (h.ed.step v)
  line _ j e h := h.setLine j ((h.line j).proc e)

theorem Channel.Legal.proc (h : c.Legal) (x : List F) : (chanProc cfg c x).2.Legal := (Channel.legal_kept cfg).proc h x

/-- What `ApplyConfig` needs of a channel to make it legal. -/
structure Channel.Prepared (c : Channel) : Prop where
  pre : c.pre.Prepared Config.dlCap
  mt : c.mt.Legal
  ed : c.ed.Prepared
  decayT : decayTOk c.decayT = true
  xseed : inUnit c.xseed = true
  line : ∀ j : Fin 12, c.line[j].Prepared

theorem Channel.Legal.prepared (h : c.Legal) : c.Prepared :=
  ⟨h.pre.core.prepared, h.mt, h.ed.prepared, h.decayT, h.xseed, fun j => (h.line j).prepared⟩

theorem decayTOk_of_legalConfig {t : F} (h : inRange 0x45160000#32 0x4A2FC800#32 t = true) : decayTOk t = true := by
  obtain ⟨hf, hge, -⟩ := (inRange_iff (by decide) (by decide)).1 h
  refine decayTOk_iff.2 ⟨(flt_iff (by decide) hf).2 (lt_of_lt_of_le ?_ hge), isInf_of_isFinite hf⟩
  decide

theorem applyBelow_line (cfg : Config.Params) (c : Channel) (k : Config.ChannelConfig) (j : Fin 12) :
    (applyBelow cfg c k).line[j] = applyLine cfg c.line[j] k.line[j] := getElem_vecOf12 _ j

theorem Channel.Prepared.applyBelow (h : c.Prepared) {k : Config.ChannelConfig} (hk : LegalConfig k) :
    (applyBelow cfg c k).Legal :=
  ⟨hk.inMix, hk.lines, h.decayT, hk.dry, hk.early, hk.lineOut, h.xseed, OnePole.legal_setFc c.hp hk.hpFc,
    OnePole.legal_setFc c.lp hk.lpFc, h.pre.apply hk.pre,
    (((h.mt.setTaps hk.taps).setLen hk.len).setDecay hk.decay).setSeed k.mt.seed, h.ed.apply hk.ed, fun j => by
      rw [applyBelow_line]
      exact (h.line j).apply (hk.line j)⟩

/-- R363: a legal record makes a prepared channel legal. -/
theorem Channel.Prepared.apply (h : c.Prepared) {k : Config.ChannelConfig} (hk : LegalConfig k) :
    (applyConfig cfg c k).Legal := ((h.applyBelow hk).setX hk.xseed).setDecay (decayTOk_of_legalConfig hk.decayT)

end

/-! ## The channel of the reset (R430) -/

theorem blankModDelay_prepared {cap : Nat} (h : 0 < cap) : blankModDelay.Prepared cap :=
  ⟨by decide, by decide, Nat.zero_le _, h, rfl, rfl⟩

theorem blankDiffuser_prepared : blankDiffuser.Prepared where
  stages := Nat.zero_le _
  dly := by decide
  fb := by decide
  modA := by decide
  modR := by decide
  xseed := by decide
  seedV_wf := rfl
  seedV_within := rfl
  core k := by
    simp only [blankDiffuser, getElem_vecOf12]
    exact blankModDelay_prepared (by decide)
  stageFb k := by
    simp only [blankDiffuser, getElem_vecOf12]
    decide

theorem blankMultitap_legal : blankMultitap.Legal :=
  ⟨by decide, by decide, by decide, by decide, by decide, rfl, rfl, rfl, rfl, rfl, rfl, rfl, rfl⟩

theorem blankLine_prepared : blankLine.Prepared :=
  ⟨⟨by decide, by decide, by decide⟩, rfl, rfl, blankModDelay_prepared (by decide), blankDiffuser_prepared⟩

theorem blankChannel_prepared : blankChannel.Prepared :=
  ⟨blankModDelay_prepared (by decide), blankMultitap_legal, blankDiffuser_prepared, by decide, by decide, fun j => by
    simp only [blankChannel, getElem_vecOf12]
    exact blankLine_prepared⟩

end Sys2Proof.Machine
end

section
/-! Every command keeps the whole machine legal (spec/10_state.md R23 to R36, spec/60_exceptions.md R406), one arm per
command. What is asked of the feedback gains is a parameter: nothing, or the form of R33 and R315. -/

namespace Sys2Proof.Machine

/-! ## Outside the channels -/

/-- `clamp01` gives a value of [0, 1], a NaN included (R350). -/
theorem inUnit_clamp01 (v : F) : inUnit (clamp01 v) = true := by
  unfold clamp01
  split
  · decide
  split
  · decide
  next hlo hhi =>
    simp only [flt, Bool.not_eq_true', Bool.not_eq_false, Bool.and_eq_true, decide_eq_true_eq] at hlo
    obtain ⟨⟨hzero, hnan⟩, hlt⟩ := hlo
    refine Bool.and_eq_true_iff.2 ⟨?_, fle_of_not_flt (by decide) (by simpa using hnan) hhi⟩
    simp only [fle, hzero, hnan, Bool.not_false, Bool.and_self, Bool.true_and, decide_eq_true_eq]
    exact hlt.le

/-- The legal values of SYS, ENG, RNG, RBUF and IO (R23, R25, R26, R35, R36). -/
structure State.LegalOutside (s : State) : Prop where
  status : s.sys.status.toNat < 64
  faultCode : s.sys.faultCode.toNat ≤ 6
  np : ∀ k : Fin 10, inUnit s.eng.np[k] = true
  xHi : s.rng.xHi = 0#32
  xseed : inUnit s.rbuf.xseed = true
  count : s.rbuf.count ≤ Config.rbCap
  val_wf : Memory.wf s.rbuf.val = true
  val_within : memWithin Config.rbCap s.rbuf.val = true
  io_wf : ∀ b : Fin 4, Memory.wf s.io[b] = true
  io_within : ∀ b : Fin 4, memWithin Config.block s.io[b] = true

theorem causeBit_lt (c : FaultCause) : (causeBit c).toNat < 2 ^ 6 := by cases c <;> decide

theorem causeCode_le (c : FaultCause) : (causeCode c).toNat ≤ 6 := by cases c <;> decide

section
variable {s : State}

theorem State.LegalOutside.raise (h : s.LegalOutside) (c : FaultCause) : (s.raise c).LegalOutside :=
  ⟨by
    show (s.sys.status ||| causeBit c).toNat < 2 ^ 6
    rw [BitVec.toNat_or]
    exact Nat.or_lt_two_pow h.status (causeBit_lt c),
    causeCode_le c, h.np, h.xHi, h.xseed, h.count, h.val_wf, h.val_within, h.io_wf, h.io_within⟩

theorem State.LegalOutside.clearFaults (h : s.LegalOutside) : s.clearFaults.LegalOutside :=
  ⟨(by decide : (0 : Word).toNat < 64), (by decide : (0 : Word).toNat ≤ 6), h.np, h.xHi, h.xseed, h.count, h.val_wf,
    h.val_within, h.io_wf, h.io_within⟩

theorem State.LegalOutside.accept (h : s.LegalOutside) (p : Port) (w : Command) (q : List Event) :
    (s.accept p w q).LegalOutside :=
  ⟨h.status, h.faultCode, h.np, h.xHi, h.xseed, h.count, h.val_wf, h.val_within, h.io_wf, h.io_within⟩

theorem State.LegalOutside.setRes (h : s.LegalOutside) (v : Word) : (s.setRes v).LegalOutside := by
  unfold State.setRes
  split
  all_goals exact ⟨h.status, h.faultCode, h.np, h.xHi, h.xseed, h.count, h.val_wf, h.val_within, h.io_wf, h.io_within⟩

theorem State.LegalOutside.setChan (h : s.LegalOutside) (sd : Side) (c : Channel) : (s.setChan sd c).LegalOutside := by
  cases sd
  all_goals exact ⟨h.status, h.faultCode, h.np, h.xHi, h.xseed, h.count, h.val_wf, h.val_within, h.io_wf, h.io_within⟩

theorem State.LegalOutside.setRng (h : s.LegalOutside) {r : Rng} (hr : r.xHi = 0#32) : (s.setRng r).LegalOutside :=
  ⟨h.status, h.faultCode, h.np, hr, h.xseed, h.count, h.val_wf, h.val_within, h.io_wf, h.io_within⟩

theorem State.LegalOutside.setRbufSeed (h : s.LegalOutside) (v : Word) : (s.setRbuf (s.rbuf.setSeed v)).LegalOutside :=
  ⟨h.status, h.faultCode, h.np, h.xHi, h.xseed, h.count, h.val_wf, h.val_within, h.io_wf, h.io_within⟩

theorem State.LegalOutside.setRbufX (h : s.LegalOutside) {x : F} (hx : inUnit x = true) :
    (s.setRbuf (s.rbuf.setX x)).LegalOutside :=
  ⟨h.status, h.faultCode, h.np, h.xHi, hx, h.count, h.val_wf, h.val_within, h.io_wf, h.io_within⟩

/-- The buffer filled with at most as many values as it holds (R140, R141). -/
theorem State.LegalOutside.fillRbuf (h : s.LegalOutside) {vs : List F} (hvs : vs.length ≤ Config.rbCap) :
    (s.setRbuf (s.rbuf.fill vs)).LegalOutside :=
  ⟨h.status, h.faultCode, h.np, h.xHi, h.xseed, hvs, wf_memWriteList h.val_wf _ _,
    memWithin_memWriteList h.val_within (by omega), h.io_wf, h.io_within⟩

theorem State.LegalOutside.setIo (h : s.LegalOutside) (b : Fin 4) {m : Mem} (hwf : Memory.wf m = true)
    (hm : memWithin Config.block m = true) : (s.setIo b m).LegalOutside :=
  ⟨h.status, h.faultCode, h.np, h.xHi, h.xseed, h.count, h.val_wf, h.val_within,
    fun i => by
      show Memory.wf (s.io.set b m)[i] = true
      rw [vec_set_get]
      split
      · exact hwf
      · exact h.io_wf i,
    fun i => by
      show memWithin Config.block (s.io.set b m)[i] = true
      rw [vec_set_get]
      split
      · exact hm
      · exact h.io_within i⟩

theorem State.LegalOutside.putBlock (h : s.LegalOutside) (b : Fin 4) {o : List F} (ho : o.length ≤ Config.block) :
    (s.putBlock b o).LegalOutside :=
  h.setIo b (wf_memWriteList (h.io_wf b) _ _) (memWithin_memWriteList (h.io_within b) (by omega))

theorem State.LegalOutside.setParam (h : s.LegalOutside) (k : Nat) (v : F) : (s.setEng (s.eng.setParam k v)).LegalOutside :=
  ⟨h.status, h.faultCode, fun i => by
      show inUnit (s.eng.np.setIfInBounds k (clamp01 v))[i] = true
      rw [Fin.getElem_fin, Vector.getElem_setIfInBounds]
      split
      · exact inUnit_clamp01 v
      · exact h.np i,
    h.xHi, h.xseed, h.count, h.val_wf, h.val_within, h.io_wf, h.io_within⟩

theorem State.LegalOutside.setDirty (h : s.LegalOutside) (b : Bool) : (s.setEng { s.eng with dirty := b }).LegalOutside :=
  ⟨h.status, h.faultCode, h.np, h.xHi, h.xseed, h.count, h.val_wf, h.val_within, h.io_wf, h.io_within⟩

end

/-! ## The whole machine -/

/-- What is asked of feedback gains allows every finite one, and `fpow10` at every argument up to 0 (R33, R315). -/
structure GainLaw (Φ : F → Prop) : Prop where
  finite : ∀ g, isFinite g = true → Φ g
  pow10 : ∀ d, fle d fzero = true → Φ (Config.chip.fpow10 d)

/-- The machine is legal, and every feedback gain is as `Φ` asks. -/
structure State.Sound (Φ : F → Prop) (s : State) : Prop where
  outside : s.LegalOutside
  chan : ∀ sd, (s.chan sd).Legal
  gain : ∀ sd (j : Fin 12), Φ (s.chan sd).line[j].fb

theorem State.Sound.legal {Φ : F → Prop} {s : State} (h : s.Sound Φ) : s.Legal :=
  ⟨h.outside.status, h.outside.faultCode, h.outside.np, h.outside.xHi, h.outside.xseed, h.outside.count,
    h.outside.val_wf, h.outside.val_within, h.outside.io_wf, h.outside.io_within, h.chan .L, h.chan .R⟩

theorem State.Legal.outside {s : State} (h : s.Legal) : s.LegalOutside :=
  ⟨h.status, h.faultCode, h.np, h.xHi, h.xseed, h.count, h.val_wf, h.val_within, h.io_wf, h.io_within⟩

section
variable {Φ : F → Prop} {s : State}

/-- A change outside the channels. -/
theorem State.Sound.of_chan (h : s.Sound Φ) {t : State} (ht : t.LegalOutside) (e : ∀ sd, t.chan sd = s.chan sd) :
    t.Sound Φ :=
  ⟨ht, fun sd => by rw [e sd]; exact h.chan sd, fun sd j => by rw [e sd]; exact h.gain sd j⟩

theorem State.Sound.raise (h : s.Sound Φ) (c : FaultCause) : (s.raise c).Sound Φ :=
  h.of_chan (h.outside.raise c) (s.chan_raise c)

theorem State.Sound.setRes (h : s.Sound Φ) (v : Word) : (s.setRes v).Sound Φ :=
  h.of_chan (h.outside.setRes v) (s.chan_setRes v)

theorem State.Sound.setRng (h : s.Sound Φ) {r : Rng} (hr : r.xHi = 0#32) : (s.setRng r).Sound Φ :=
  h.of_chan (h.outside.setRng hr) (s.chan_setRng r)

theorem State.Sound.fillRbuf (h : s.Sound Φ) {vs : List F} (hvs : vs.length ≤ Config.rbCap) :
    (s.setRbuf (s.rbuf.fill vs)).Sound Φ := h.of_chan (h.outside.fillRbuf hvs) (s.chan_setRbuf _)

theorem State.Sound.putBlock (h : s.Sound Φ) (b : Fin 4) {o : List F} (ho : o.length ≤ Config.block) :
    (s.putBlock b o).Sound Φ := h.of_chan (h.outside.putBlock b ho) (s.chan_putBlock b o)

theorem State.Sound.setChan (h : s.Sound Φ) (sd : Side) {c : Channel} (hc : c.Legal) (hg : ∀ j : Fin 12, Φ c.line[j].fb) :
    (s.setChan sd c).Sound Φ where
  outside := h.outside.setChan sd c
  chan sd' := by
    rw [State.chan_setChan]
    split
    · exact hc
    · exact h.chan sd'
  gain sd' := by
    rw [State.chan_setChan]
    split
    · exact hg
    · exact h.gain sd'

theorem State.Sound.line (h : s.Sound Φ) (sd : Side) (j : Fin 12) : (s.line sd j).Legal := (h.chan sd).line j

theorem State.Sound.setLine (h : s.Sound Φ) (sd : Side) (j : Fin 12) {l : DelayLine} (hl : l.Legal) (hg : Φ l.fb) :
    (s.setLine sd j l).Sound Φ :=
  h.setChan sd ((h.chan sd).setLine j hl) fun i => by
    show Φ ((s.chan sd).line.set j l)[i].fb
    rw [vec_set_get]
    split
    · exact hg
    · exact h.gain sd i

theorem State.Sound.lp1 (h : s.Sound Φ) (r : Lp1Ref) : (s.lp1 r).Legal := by
  cases r with
  | chan sd => exact (h.chan sd).lp
  | damp sd j => exact (h.line sd j).damp

theorem State.Sound.setLp1 (h : s.Sound Φ) (r : Lp1Ref) {f : OnePole} (hf : f.Legal) : (s.setLp1 r f).Sound Φ := by
  cases r with
  | chan sd => exact h.setChan sd ((h.chan sd).withLp hf) (h.gain sd)
  | damp sd j => exact h.setLine sd j ((h.line sd j).withDamp hf) (h.gain sd j)

theorem State.Sound.setHp1 (h : s.Sound Φ) (sd : Side) {f : OnePole} (hf : f.Legal) : (s.setHp1 sd f).Sound Φ :=
  h.setChan sd ((h.chan sd).withHp hf) (h.gain sd)

theorem State.Sound.shelf (h : s.Sound Φ) (r : ShelfRef) : (s.shelf r).Legal := by
  obtain ⟨sd, j, kind⟩ := r
  cases kind with
  | low => exact (h.line sd j).ls
  | high => exact (h.line sd j).hs

theorem State.Sound.setShelf (h : s.Sound Φ) (r : ShelfRef) {f : Shelf} (hf : f.Legal) : (s.setShelf r f).Sound Φ := by
  obtain ⟨sd, j, kind⟩ := r
  cases kind with
  | low => exact h.setLine sd j ((h.line sd j).withLs hf) (h.gain sd j)
  | high => exact h.setLine sd j ((h.line sd j).withHs hf) (h.gain sd j)

theorem State.Sound.diff (h : s.Sound Φ) (r : DiffRef) : (s.diff r).Legal := by
  cases r with
  | early sd => exact (h.chan sd).ed
  | line sd j => exact (h.line sd j).df

theorem State.Sound.setDiff (h : s.Sound Φ) (r : DiffRef) {d : Diffuser} (hd : d.Legal) : (s.setDiff r d).Sound Φ := by
  cases r with
  | early sd => exact h.setChan sd ((h.chan sd).withEd hd) (h.gain sd)
  | line sd j => exact h.setLine sd j ((h.line sd j).withDf hd) (h.gain sd j)

theorem State.Sound.map (h : s.Sound Φ) (r : MapRef) : (s.map r).Legal := (h.diff r.diff).stage r.k

theorem State.Sound.setMap (h : s.Sound Φ) (r : MapRef) {a : Allpass} (ha : a.Legal) : (s.setMap r a).Sound Φ :=
  h.setDiff r.diff ((h.diff r.diff).setStage r.k ha)

theorem State.Sound.mdly (h : s.Sound Φ) (r : MdlyRef) : (s.mdly r).LegalDelay := by
  cases r with
  | pre sd => exact (h.chan sd).pre
  | line sd j => exact (h.line sd j).delay

theorem State.Sound.setMdly (h : s.Sound Φ) (r : MdlyRef) {u : ModDelay} (hu : u.LegalDelay) : (s.setMdly r u).Sound Φ := by
  cases r with
  | pre sd => exact h.setChan sd ((h.chan sd).withPre hu) (h.gain sd)
  | line sd j => exact h.setLine sd j ((h.line sd j).withDelay hu) (h.gain sd j)

theorem State.Sound.mtap (h : s.Sound Φ) (sd : Side) : (s.mtap sd).Legal := (h.chan sd).mt

theorem State.Sound.setMtap (h : s.Sound Φ) (sd : Side) {u : Multitap} (hu : u.Legal) : (s.setMtap sd u).Sound Φ :=
  h.setChan sd ((h.chan sd).withMt hu) (h.gain sd)

theorem State.length_block_le {s : State} {n : Nat} (hn : blockOk n = true) (b : Fin 4) :
    (s.block b n).length ≤ Config.block := by
  rw [State.block_length]
  exact (blockOk_iff.1 hn).2

end

end Sys2Proof.Machine
end

section
/-! The block commands and the pass on the channels of the machine (spec/48_channel.md R327, spec/49_engine.md R353, R355),
and what every step keeps (spec/60_exceptions.md R406). -/

namespace Sys2Proof.Machine

/-! ## The block of a channel -/

section
variable {cfg : Config.Params}

theorem chanEarlyBlock_length (c : Channel) (x : List F) : (chanEarlyBlock cfg c x).1.length = x.length := by
  induction x generalizing c with
  | nil => rfl
  | cons x xs ih => exact congrArg (· + 1) (ih _)

theorem chanLine_length (lines : Nat) (e : List F) (acc : List F × Vector DelayLine 12) (j : Fin 12)
    (h : acc.1.length = e.length) : (chanLine cfg lines e acc j).1.length = e.length := by
  unfold chanLine
  split
  · exact (List.length_zipWith ..).trans (by rw [h, dlineProc_length, Nat.min_self])
  · exact h

theorem chanLines_length (c : Channel) (e : List F) : (chanLines cfg c e).1.length = e.length :=
  List.foldlRecOn (motive := fun acc : List F × Vector DelayLine 12 => acc.1.length = e.length) idx12
    (chanLine cfg c.lines e) (List.length_map _) fun acc hacc j _ => chanLine_length c.lines e acc j hacc

/-- R314: the early taps, the sums over the lines, and their mix. -/
theorem chanProc_fst (c : Channel) (x : List F) :
    (chanProc cfg c x).1 = List.zipWith (fun xe sum => chanMix c xe.1 xe.2 sum) (x.zip (chanEarlyBlock cfg c x).1)
      (chanLines cfg (chanEarlyBlock cfg c x).2 (chanEarlyBlock cfg c x).1).1 := rfl

theorem chanProc_snd (c : Channel) (x : List F) :
    (chanProc cfg c x).2 = (chanLines cfg (chanEarlyBlock cfg c x).2 (chanEarlyBlock cfg c x).1).2 := rfl

theorem chanProc_length (c : Channel) (x : List F) : (chanProc cfg c x).1.length = x.length := by
  rw [chanProc_fst, List.length_zipWith, List.length_zip, chanLines_length, chanEarlyBlock_length, Nat.min_self,
    Nat.min_self]

end

/-! ## Both channels replaced, as one after the other -/

theorem State.procFrames_eq (s : State) (n : Nat) :
    s.procFrames n =
      (((s.setChan .L (chanProc Config.chip s.left (s.block 0 n)).2).setChan .R
        (chanProc Config.chip s.right (s.block 1 n)).2).putBlock 2
          (List.zipWith (mixLaw (s.eng.param 4)) (s.block 0 n) (chanProc Config.chip s.left (s.block 0 n)).1)).putBlock 3
            (List.zipWith (mixLaw (s.eng.param 4)) (s.block 1 n) (chanProc Config.chip s.right (s.block 1 n)).1) := rfl

theorem State.clearChannels_eq (s : State) : s.clearChannels = (s.setChan .L s.left.clear).setChan .R s.right.clear := rfl

/-- What the pass makes of the channel of a side (R353). -/
def State.synced (s : State) (sd : Side) : Channel :=
  applyConfig Config.chip (s.chan sd) (deriveConfig Config.chip s.eng.np Config.defaultInputMix sd)

theorem State.engSync_of_clean {s : State} (h : s.eng.dirty = false) : s.engSync = s := by
  rw [State.engSync, if_neg (by rw [h]; decide)]

theorem State.engSync_of_dirty {s : State} (h : s.eng.dirty = true) :
    s.engSync = ((s.setEng { s.eng with dirty := false }).setChan .L (s.synced .L)).setChan .R (s.synced .R) := by
  rw [State.engSync, if_pos h]
  rfl

/-! ## The gains of a line -/

section
variable {Φ : F → Prop}

/-- A block leaves the gains as they are: they are settings (R297, R327). -/
theorem gain_chanProc {c : Channel} (h : ∀ j : Fin 12, Φ c.line[j].fb) (x : List F) (j : Fin 12) :
    Φ (chanProc Config.chip c x).2.line[j].fb := by
  rw [((chanProc_sameSettings c x).line j).fb]
  exact h j

theorem gain_setDecay (hΦ : GainLaw Φ) {c : Channel} (h : c.Legal) {t : F} (ht : decayTOk t = true) (j : Fin 12) :
    Φ (c.setDecay Config.chip t).line[j].fb := by
  obtain ⟨d, hd, he⟩ := lineFb_eq_fpow10 (cfg := Config.chip) (h.line j) ht
  rw [Channel.setDecay_line]
  show Φ (lineFb Config.chip c.line[j].delay.dly t)
  rw [he]
  exact hΦ.pow10 d hd

theorem gain_apply (hΦ : GainLaw Φ) {c : Channel} (h : c.Prepared) {k : Config.ChannelConfig} (hk : LegalConfig k)
    (j : Fin 12) : Φ (applyConfig Config.chip c k).line[j].fb :=
  gain_setDecay hΦ ((h.applyBelow hk).setX hk.xseed) (decayTOk_of_legalConfig hk.decayT) j

end

/-! ## The machine -/

section
variable {Φ : F → Prop} {s : State}

theorem State.Sound.chanProc (h : s.Sound Φ) (sd : Side) (x : List F) :
    (s.setChan sd (chanProc Config.chip (s.chan sd) x).2).Sound Φ :=
  h.setChan sd ((h.chan sd).proc x) (gain_chanProc (h.gain sd) x)

theorem State.Sound.procLine (h : s.Sound Φ) (sd : Side) (j : Fin 12) {n : Nat} (hn : blockOk n = true) :
    (s.procLine sd j n).Sound Φ := by
  refine (h.setLine sd j ((h.line sd j).proc _) ?_).putBlock 2 ?_
  · rw [(dlineProc_sameSettings (s.line sd j) (s.block 0 n)).fb]
    exact h.gain sd j
  · rw [dlineProc_length]
    exact State.length_block_le hn 0

theorem State.Sound.procChan (h : s.Sound Φ) (sd : Side) {n : Nat} (hn : blockOk n = true) : (s.procChan sd n).Sound Φ := by
  refine (h.chanProc sd (s.block 0 n)).putBlock 2 ?_
  rw [chanProc_length]
  exact State.length_block_le hn 0

theorem State.Sound.procFrames (h : s.Sound Φ) {n : Nat} (hn : blockOk n = true) : (s.procFrames n).Sound Φ := by
  have hlen (b : Fin 4) (g : F → F → F) (ys : List F) : (List.zipWith g (s.block b n) ys).length ≤ Config.block := by
    rw [List.length_zipWith]
    exact (min_le_left _ _).trans (State.length_block_le hn b)
  rw [State.procFrames_eq]
  exact (((h.chanProc .L (s.block 0 n)).chanProc .R (s.block 1 n)).putBlock 2 (hlen 0 _ _)).putBlock 3 (hlen 1 _ _)

theorem State.Sound.clearChannels (h : s.Sound Φ) : s.clearChannels.Sound Φ := by
  have hgain (sd : Side) (j : Fin 12) : Φ (s.chan sd).clear.line[j].fb := by
    show Φ (vecMap DelayLine.clear (s.chan sd).line)[j].fb
    rw [getElem_vecMap]
    exact h.gain sd j
  exact (h.setChan .L (h.chan .L).clear (hgain .L)).setChan .R (h.chan .R).clear (hgain .R)

/-- R353: a legal parameter of the cross seed makes a legal record, and a legal record legal channels. -/
theorem State.Sound.engSync (hΦ : GainLaw Φ) (h : s.Sound Φ) : s.engSync.Sound Φ := by
  cases hd : s.eng.dirty with
  | false => rwa [State.engSync_of_clean hd]
  | true =>
    have hk (sd : Side) : LegalConfig (deriveConfig Config.chip s.eng.np Config.defaultInputMix sd) :=
      deriveConfig_legal Config.chip sd (h.outside.np 7) (by decide)
    have hprep (sd : Side) : (s.chan sd).Prepared := (h.chan sd).prepared
    have heng : (s.setEng { s.eng with dirty := false }).Sound Φ := h.of_chan (h.outside.setDirty false) (s.chan_setEng _)
    rw [State.engSync_of_dirty hd]
    exact (heng.setChan .L ((hprep .L).apply (hk .L)) (gain_apply hΦ (hprep .L) (hk .L))).setChan .R
      ((hprep .R).apply (hk .R)) (gain_apply hΦ (hprep .R) (hk .R))

end

/-- The channel of a side after reset (R430 step 6). -/
theorem chan_resetWith (p : Port) (w : Command) (q : List Event) (sd : Side) :
    (resetWith Config.chip p w q).chan sd = resetChannel Config.chip sd := by
  cases sd <;> rfl

theorem legalConfig_reset (sd : Side) :
    LegalConfig (deriveConfig Config.chip Config.defaultParams Config.defaultInputMix sd) :=
  deriveConfig_legal Config.chip sd (by decide) (by decide)

/-- R430: the machine is legal after a reset, from any state. -/
theorem resetWith_sound {Φ : F → Prop} (hΦ : GainLaw Φ) (p : Port) (w : Command) (q : List Event) :
    (resetWith Config.chip p w q).Sound Φ where
  outside :=
    { status := (by decide : resetSys.status.toNat < 64)
      faultCode := (by decide : resetSys.faultCode.toNat ≤ 6)
      np := by
        show ∀ k : Fin 10, inUnit Config.defaultParams[k] = true
        decide
      xHi := rfl
      xseed := (by decide : inUnit fzero = true)
      count := Nat.zero_le _
      val_wf := rfl
      val_within := rfl
      io_wf := by
        show ∀ b : Fin 4, Memory.wf resetIo[b] = true
        decide
      io_within := by
        show ∀ b : Fin 4, memWithin Config.block resetIo[b] = true
        decide }
  chan sd := by
    rw [chan_resetWith]
    exact blankChannel_prepared.apply (legalConfig_reset sd)
  gain sd := by
    rw [chan_resetWith]
    exact gain_apply hΦ blankChannel_prepared (legalConfig_reset sd)

/-! ## The commands -/

theorem indexOk_iff {sub : SubField} : indexOk sub = true ↔ sub.toNat < 128 := decide_eq_true_iff

theorem State.Sound.ioWrite {Φ : F → Prop} {s : State} (h : s.Sound Φ) (b : Fin 4) {sub : SubField}
    (hi : indexOk sub = true) (v : Word) : (s.setIo b (memWrite s.io[b] sub.toNat v)).Sound Φ :=
  h.of_chan (h.outside.setIo b (wf_memWrite (h.outside.io_wf b) _ _)
    (memWithin_memWrite (h.outside.io_within b) (indexOk_iff.1 hi) _)) (s.chan_setIo b _)

/-- Every command keeps the machine legal: the settings by their operand checks, the rest as each unit does. -/
theorem exec_keeps_sound {Φ : F → Prop} (hΦ : GainLaw Φ) {s : State} (h : s.Sound Φ) (i : Instr) :
    Leads (State.Sound Φ) (exec i s) :=
  have hf := h.raise
  match i with
  | .nop => leads_next h
  | .reset => leads_onPortA hf (leads_next (resetWith_sound hΦ _ _ _))
  | .rdreg .. => leads_onRegs hf fun _ => leads_putRead hf h.setRes
  | .rdmem .. => leads_onMems hf fun _ => leads_putRead hf h.setRes
  | .clrf => leads_onPortA hf (leads_next (h.of_chan h.outside.clearFaults s.chan_clearFaults))
  | .ioWr .. => leads_onIo hf fun b => leads_check hf fun hi => leads_next (h.ioWrite b hi _)
  | .ioRd .. => leads_onIo hf fun _ => leads_check hf fun _ => leads_next (h.setRes _)
  | .rngSeed .. => leads_onRng hf (leads_next (h.setRng rfl))
  | .rngNext _ => leads_onRng hf (leads_next ((h.setRng rfl).setRes _))
  | .rbSetSeed .. => leads_onRbuf hf (leads_next (h.of_chan (h.outside.setRbufSeed _) (s.chan_setRbuf _)))
  | .rbSetX .. =>
    leads_onRbuf hf (leads_check hf fun hx => leads_next (h.of_chan (h.outside.setRbufX hx) (s.chan_setRbuf _)))
  | .rbGen _ n => leads_onRbuf hf (leads_check hf fun hn => leads_next (by
      rw [Rbuf.gen_eq_fill]
      exact h.fillRbuf ((length_generate ..).trans_le (of_decide_eq_true hn))))
  | .rbGenX _ n => leads_onRbuf hf (leads_check hf fun hn => leads_next (by
      rw [Rbuf.genX_eq_fill]
      exact h.fillRbuf ((length_generateCross ..).trans_le (of_decide_eq_true hn))))
  | .lpSetFc .. => leads_onLp1 hf fun r => leads_check hf fun hv => leads_next (h.setLp1 r (OnePole.legal_setFc _ hv))
  | .lpStep .. => leads_onLp1 hf fun r => leads_next ((h.setLp1 r ((h.lp1 r).lp1Step _)).setRes _)
  | .lpClr _ => leads_onLp1 hf fun r => leads_next (h.setLp1 r (h.lp1 r).clear)
  | .hpSetFc .. => leads_onHp1 hf fun sd => leads_check hf fun hv => leads_next (h.setHp1 sd (OnePole.legal_setFc _ hv))
  | .hpStep .. => leads_onHp1 hf fun sd => leads_next ((h.setHp1 sd ((h.chan sd).hp.hp1Step _)).setRes _)
  | .hpClr _ => leads_onHp1 hf fun sd => leads_next (h.setHp1 sd (h.chan sd).hp.clear)
  | .shSetF .. => leads_onShelf hf fun r => leads_check hf fun hv => leads_next (h.setShelf r ((h.shelf r).setF _ hv))
  | .shSetG .. =>
    leads_onShelf hf fun r => leads_check hf fun hg => leads_next (h.setShelf r ((h.shelf r).setG _ (by simpa using hg)))
  | .shStep .. => leads_onShelf hf fun r => leads_next ((h.setShelf r ((h.shelf r).step _)).setRes _)
  | .shClr _ => leads_onShelf hf fun r => leads_next (h.setShelf r (h.shelf r).clear)
  | .apSetDly .. => leads_onMap hf fun r => leads_check hf fun hn => leads_next (h.setMap r ((h.map r).setDly hn))
  | .apSetFb .. => leads_onMap hf fun r => leads_check hf fun hg => leads_next (h.setMap r ((h.map r).setFb hg))
  | .apSetModA .. => leads_onMap hf fun r => leads_check hf fun _ => leads_next (h.setMap r ((h.map r).setModA _))
  | .apSetModR .. => leads_onMap hf fun r => leads_check hf fun _ => leads_next (h.setMap r ((h.map r).setModR _))
  | .apSetInterp .. => leads_onMap hf fun r => leads_check hf fun _ => leads_next (h.setMap r ((h.map r).withFlags _))
  | .apSetModEn .. => leads_onMap hf fun r => leads_check hf fun _ => leads_next (h.setMap r ((h.map r).withFlags _))
  | .apStep .. => leads_onMap hf fun r => leads_next ((h.setMap r ((h.map r).step _)).setRes _)
  | .apClr _ => leads_onMap hf fun r => leads_next (h.setMap r (h.map r).clear)
  | .dfSetStages .. =>
    leads_onDiff hf fun r => leads_check hf fun hn => leads_next (h.setDiff r ((h.diff r).setStages (stagesOk_iff.1 hn)))
  | .dfSetDly .. =>
    leads_onDiff hf fun r => leads_check hf fun hn => leads_next (h.setDiff r ((h.diff r).prepared.setDly hn))
  | .dfSetFb .. => leads_onDiff hf fun r => leads_check hf fun hg => leads_next (h.setDiff r ((h.diff r).setFb hg))
  | .dfSetModA .. =>
    leads_onDiff hf fun r => leads_check hf fun ha => leads_next (h.setDiff r ((h.diff r).prepared.setModA ha))
  | .dfSetModR .. =>
    leads_onDiff hf fun r => leads_check hf fun hr => leads_next (h.setDiff r ((h.diff r).prepared.setModR hr))
  | .dfSetSeed .. => leads_onDiff hf fun r => leads_next (h.setDiff r ((h.diff r).prepared.setSeed _))
  | .dfSetX .. => leads_onDiff hf fun r => leads_check hf fun hc => leads_next (h.setDiff r ((h.diff r).prepared.setX hc))
  | .dfSetInterp .. => leads_onDiff hf fun r => leads_check hf fun _ => leads_next (h.setDiff r ((h.diff r).setInterp _))
  | .dfSetModEn .. => leads_onDiff hf fun r => leads_check hf fun _ => leads_next (h.setDiff r ((h.diff r).setModEn _))
  | .dfStep .. => leads_onDiff hf fun r => leads_next ((h.setDiff r ((h.diff r).step _)).setRes _)
  | .dfClr _ => leads_onDiff hf fun r => leads_next (h.setDiff r (h.diff r).clear)
  | .mdSetDly .. => leads_onMdly hf fun r => leads_check hf fun hn => leads_next (h.setMdly r ((h.mdly r).setDly hn))
  | .mdSetModA .. => leads_onMdly hf fun r => leads_check hf fun ha => leads_next (h.setMdly r ((h.mdly r).setModA ha))
  | .mdSetModR .. => leads_onMdly hf fun r => leads_check hf fun hr => leads_next (h.setMdly r ((h.mdly r).setModR hr))
  | .mdStep .. => leads_onMdly hf fun r => leads_next ((h.setMdly r ((h.mdly r).step _)).setRes _)
  | .mdClr _ => leads_onMdly hf fun r => leads_next (h.setMdly r (h.mdly r).clear)
  | .mtSetTaps .. => leads_onMtap hf fun sd => leads_check hf fun hn => leads_next (h.setMtap sd ((h.mtap sd).setTaps hn))
  | .mtSetLen .. => leads_onMtap hf fun sd => leads_check hf fun hn => leads_next (h.setMtap sd ((h.mtap sd).setLen hn))
  | .mtSetDecay .. =>
    leads_onMtap hf fun sd => leads_check hf fun hd => leads_next (h.setMtap sd ((h.mtap sd).setDecay hd))
  | .mtSetSeed .. => leads_onMtap hf fun sd => leads_next (h.setMtap sd ((h.mtap sd).setSeed _))
  | .mtSetX .. => leads_onMtap hf fun sd => leads_check hf fun hc => leads_next (h.setMtap sd ((h.mtap sd).setX hc))
  | .mtStep .. => leads_onMtap hf fun sd => leads_next ((h.setMtap sd ((h.mtap sd).step _)).setRes _)
  | .mtClr _ => leads_onMtap hf fun sd => leads_next (h.setMtap sd (h.mtap sd).clear)
  | .dlSetFb .. =>
    leads_onLine hf fun sd j => leads_check hf fun hg =>
      leads_next (h.setLine sd j ((h.line sd j).setFb _) (hΦ.finite _ hg))
  | .dlSetFlags .. =>
    leads_onLine hf fun sd j => leads_check hf fun _ =>
      leads_next (h.setLine sd j ((h.line sd j).setFlags _) (h.gain sd j))
  | .dlProc .. => leads_onLine hf fun sd j => leads_check hf fun hn => leads_next (h.procLine sd j hn)
  | .dlClr _ => leads_onLine hf fun sd j => leads_next (h.setLine sd j (h.line sd j).clear (h.gain sd j))
  | .chSetInMix .. =>
    leads_onChan hf fun sd => leads_check hf fun hg => leads_next (h.setChan sd ((h.chan sd).setInMix hg) (h.gain sd))
  | .chSetFlags .. =>
    leads_onChan hf fun sd => leads_check hf fun _ => leads_next (h.setChan sd ((h.chan sd).setFlags _) (h.gain sd))
  | .chSetLines .. =>
    leads_onChan hf fun sd => leads_check hf fun hn => leads_next (h.setChan sd ((h.chan sd).setLines hn) (h.gain sd))
  | .chSetDecay .. =>
    leads_onChan hf fun sd => leads_check hf fun ht =>
      leads_next (h.setChan sd ((h.chan sd).setDecay ht) (gain_setDecay hΦ (h.chan sd) ht))
  | .chSetDry .. =>
    leads_onChan hf fun sd => leads_check hf fun hg => leads_next (h.setChan sd ((h.chan sd).setDry hg) (h.gain sd))
  | .chSetEarly .. =>
    leads_onChan hf fun sd => leads_check hf fun hg => leads_next (h.setChan sd ((h.chan sd).setEarly hg) (h.gain sd))
  | .chSetLineOut .. =>
    leads_onChan hf fun sd => leads_check hf fun hg => leads_next (h.setChan sd ((h.chan sd).setLineOut hg) (h.gain sd))
  | .chSetX .. =>
    leads_onChan hf fun sd => leads_check hf fun hx =>
      leads_next (h.setChan sd ((h.chan sd).setX hx) fun j => by
        rw [Channel.setX_line]
        exact h.gain sd j)
  | .chProc .. => leads_onChan hf fun sd => leads_check hf fun hn => leads_next (h.procChan sd hn)
  | .chClr _ =>
    leads_onChan hf fun sd => leads_next (h.setChan sd (h.chan sd).clear fun j => by
      show Φ (vecMap DelayLine.clear (s.chan sd).line)[j].fb
      rw [getElem_vecMap]
      exact h.gain sd j)
  | .enSetP .. =>
    leads_onEngAny hf (leads_check hf fun _ => leads_next (h.of_chan (h.outside.setParam _ _) (s.chan_setEng _)))
  | .enGetP .. => leads_onEngAny hf (leads_check hf fun _ => leads_next (h.setRes _))
  | .enProc .. => leads_onEng hf (leads_check hf fun hn => leads_next ((h.engSync hΦ).procFrames hn))
  | .enClr _ => leads_onEng hf (leads_next h.clearChannels)
  | .enSync _ => leads_onEng hf (leads_next (h.engSync hΦ))
  | .fnR2d .. => leads_onFn hf (leads_next (h.setRes _))
  | .fnR3d .. => leads_onFn hf (leads_next (h.setRes _))
  | .fnR4o .. => leads_onFn hf (leads_next (h.setRes _))
  | .fnDb2Lin .. => leads_onFn hf (leads_next (h.setRes _))

/-- One step keeps the machine legal, whatever the event is. -/
theorem step_keeps_sound {Φ : F → Prop} (hΦ : GainLaw Φ) {s : State} (h : s.Sound Φ) : Leads (State.Sound Φ) (step s) := by
  unfold step
  split
  · exact leads_next h
  · exact leads_next (resetWith_sound hΦ _ _ _)
  · next p w q _ =>
    have ha : (s.accept p w q).Sound Φ := h.of_chan (h.outside.accept p w q) (s.chan_accept p w q)
    split
    · exact exec_keeps_sound hΦ ha _
    · exact leads_next (ha.raise _)

/-! ## The gains of R33 -/

/-- `DelayLine.FbLegal` as a condition on the gain. -/
def GainLegal (g : F) : Prop := isFinite g = true ∨ ∃ d, fle d fzero = true ∧ g = Config.chip.fpow10 d

theorem gainLaw_true : GainLaw fun _ => True := ⟨fun _ _ => trivial, fun _ _ => trivial⟩

theorem gainLaw_gainLegal : GainLaw GainLegal := ⟨fun _ => .inl, fun d hd => .inr ⟨d, hd, rfl⟩⟩

theorem State.fbLegal_iff {s : State} : s.FbLegal ↔ ∀ sd (j : Fin 12), GainLegal (s.chan sd).line[j].fb := Iff.rfl

theorem State.Legal.sound {s : State} (h : s.Legal) {Φ : F → Prop} (hg : ∀ sd (j : Fin 12), Φ (s.chan sd).line[j].fb) :
    s.Sound Φ := ⟨h.outside, h.chan, hg⟩

/-- An argument up to 0 is below the limit of `POW10_FINITE` (R13). -/
theorem fle_limit_of_fle_fzero {d : F} (hd : isFinite d = true) (h : fle d fzero = true) : fle d 0x42180000#32 = true :=
  (fle_iff hd (by decide)).2 (((fle_iff hd (by decide)).1 h).trans (by decide))

/-- Settles O56: one induction step for the legal values, with the form of the gains or without. -/
theorem legalKept : Obligations.LegalKept := by
  unfold Obligations.LegalKept
  refine ⟨fun s t hl ht => ⟨?_, fun hfb => ?_⟩, fun cfg l hp hfb => ?_⟩
  · exact (step_keeps_sound gainLaw_true (hl.sound fun _ _ => trivial) t ht).legal
  · exact State.fbLegal_iff.2 (step_keeps_sound gainLaw_gainLegal (hl.sound (State.fbLegal_iff.1 hfb)) t ht).gain
  · obtain hfin | ⟨d, hd, he⟩ := hfb
    · exact .inl hfin
    obtain hfin | rfl := isFinite_or_eq_of_fle_fzero hd
    · left
      rw [he]
      exact (hp d hfin (fle_limit_of_fle_fzero hfin hd)).1
    · exact .inr he

/-- Settles O57: what a reset leaves is legal as any pass makes it, and fresh and in range as earlier shown. -/
theorem invariantsAtReset : Obligations.InvariantsAtReset :=
  ⟨(resetWith_sound gainLaw_true _ _ _).legal, (resetWith_tuned _ _ _).ranged,
    State.fbLegal_iff.2 (resetWith_sound gainLaw_gainLegal _ _ _).gain, (resetWith_fresh _ _ _).coherent⟩

end Sys2Proof.Machine
end

section
/-! The system commands (spec/49_engine.md section 6): no-operation, reset, fault clear, the debug reads and the block sample
memories; and what a fault is to the machine (spec/60_exceptions.md R402, R411, R412, R447). -/

namespace Sys2Proof.Machine

/-! ## The fault registers -/

section
variable {s : State}

theorem untouched_clearFaults (s : State) : Untouched s s.clearFaults (fun r n => r = .sys ∧ n ≤ 3) noMem := by
  refine ⟨fun r n h => ?_, fun r m i _ => readMem_clearFaults s m i, rfl, rfl, rfl⟩
  by_cases hr : r = .sys
  · subst hr
    match n with
    | 0 | 1 | 2 | 3 => exact absurd ⟨rfl, by decide⟩ h
    | 4 | 5 | _ + 6 => rfl
  · exact readReg_clearFaults s hr n

/-- Settles O14, each command by its one arm. -/
theorem systemCommands : Obligations.SystemCommands := by
  unfold Obligations.SystemCommands
  exact fun s => ⟨rfl,
    fun hp => ⟨⟨s.clearFaults, onPortA_A hp _, rfl, untouched_clearFaults s⟩, onPortA_A hp _⟩,
    fun hp => ⟨onPortA_C hp _, onPortA_C hp _⟩⟩

/-! ## The debug reads (R385, R386) -/

theorem exec_rdreg {u : UnitAddr} {r : UnitRef} (hu : unitOf u = some r) (hr : r.cls.hasRegs = true) (sub : SubField) :
    exec (.rdreg u sub) s = putRead s (readReg s r sub.toNat) := onRegs_eq hu ((hasRegs_eq r).trans hr) _

theorem exec_rdmem {u : UnitAddr} {r : UnitRef} (hp : s.port = .A) (hu : unitOf u = some r) (hr : r.cls.hasMems = true)
    (sub : SubField) (i : Word) : exec (.rdmem u sub i) s = putRead s (readMem s r sub.toNat i.toNat) :=
  onMems_eq hp hu ((hasMems_eq r).trans hr) _

/-- A read of something there is. -/
theorem putRead_of_isSome {v : Option Word} (h : v.isSome = true) :
    ∃ t w, putRead s v = .next t ∧ v = some w ∧ t.res s.port = w ∧ Untouched s t (resReg s) noMem := by
  obtain ⟨w, rfl⟩ := Option.isSome_iff_exists.1 h
  exact ⟨s.setRes w, w, rfl, rfl, s.res_setRes w, untouched_setRes s w⟩

theorem putRead_of_not_isSome {v : Option Word} (h : v.isSome = false) : putRead s v = .next (s.raise .idxErr) := by
  rw [Option.isSome_eq_false_iff.1 h |> Option.isNone_iff_eq_none.1, putRead_none]

/-- Settles O16: a register is there exactly for the numbers of its class. -/
theorem readRegister : Obligations.ReadRegister := by
  unfold Obligations.ReadRegister
  refine fun s u sub => ⟨fun r hu hr => ⟨fun hn => ?_, fun hn => ?_⟩, fun hno => ?_⟩
  · rw [exec_rdreg hu hr]
    exact putRead_of_isSome ((isSome_readReg s r sub.toNat).trans hn)
  · rw [exec_rdreg hu hr]
    exact putRead_of_not_isSome ((isSome_readReg s r sub.toNat).trans hn)
  · show onRegs u s _ = _
    unfold onRegs
    cases hu : unitOf u with
    | none => rfl
    | some r => exact if_neg (by rw [hasRegs_eq, hno r hu]; decide)

/-- Settles O17: a memory word is there exactly for the indices of its class. -/
theorem readMemory : Obligations.ReadMemory := by
  unfold Obligations.ReadMemory
  refine fun s u sub i => ⟨fun hp => ⟨fun r hu hr => ⟨fun hn => ?_, fun hn => ?_⟩, fun hno => ?_⟩,
    fun hp => onPortA_C hp _⟩
  · rw [exec_rdmem hp hu hr]
    obtain ⟨t, w, ht, hw, hres, hframe⟩ :=
      putRead_of_isSome (s := s) ((isSome_readMem s r sub.toNat i.toNat).trans (decide_eq_true hn))
    rw [hp] at hres
    exact ⟨t, w, ht, hw, hres, hframe⟩
  · rw [exec_rdmem hp hu hr]
    exact putRead_of_not_isSome ((isSome_readMem s r sub.toNat i.toNat).trans (decide_eq_false hn))
  · show onMems u s _ = _
    rw [onMems, onPortA_A hp]
    cases hu : unitOf u with
    | none => rfl
    | some r => exact if_neg (by rw [hasMems_eq, hno r hu]; decide)

/-! ## The block sample memories (R383, R384) -/

theorem readMem_io (s : State) (b : Fin 4) {i : Nat} (hi : i < 128) : readMem s (.io b) 0 i = some (memRead s.io[b] i) :=
  if_pos hi

/-- Settles O18: one word of a bank is written, or read, under the check of the index. -/
theorem blockMemory : Obligations.BlockMemory := by
  unfold Obligations.BlockMemory
  refine fun s u sub v => ⟨fun hp b hu => ⟨fun hi => ⟨fun hwf => ?_, ?_⟩, fun hi => ⟨?_, ?_⟩⟩,
    fun hp => ⟨onPortA_C hp _, onPortA_C hp _⟩⟩
  · refine ⟨s.setIo b (memWrite s.io[b] sub.toNat v), ?_, ?_, ?_⟩
    · show onIo u s _ = _
      rw [onIo_eq hp hu, indexOk_iff.2 hi, check_true]
    · rw [readMem_io _ _ hi]
      show some (memRead (s.io.set b _)[b] sub.toNat) = _
      rw [vec_set_get, if_pos rfl, memRead_memWrite hwf, if_pos rfl]
    · exact untouched_setIo s b _ (Q := (· = sub.toNat)) fun i hi => memRead_memWrite_ne _ _ hi
  · refine ⟨s.setRes (memRead s.io[b] sub.toNat), ?_, ?_, untouched_setRes s _⟩
    · show onIo u s _ = _
      rw [onIo_eq hp hu, indexOk_iff.2 hi, check_true]
    · rw [readMem_io _ _ hi, resA_setRes hp]
  · show onIo u s _ = _
    rw [onIo_eq hp hu, Bool.eq_false_iff.2 (mt indexOk_iff.1 (not_lt.2 hi)), check_false]
  · show onIo u s _ = _
    rw [onIo_eq hp hu, Bool.eq_false_iff.2 (mt indexOk_iff.1 (not_lt.2 hi)), check_false]

end

/-! ## The function unit (R341 to R347) -/

/-- A command that writes its result register alone. -/
theorem exists_setRes {s : State} (hp : s.port = .A) {o : Out} {v : Word} (h : o = .next (s.setRes v)) :
    ∃ t, o = .next t ∧ t.resA = v ∧ Untouched s t (resReg s) noMem :=
  ⟨s.setRes v, h, resA_setRes hp v, untouched_setRes s v⟩

/-- Settles O55: the constants of the four curves are the patterns of R341 to R343. -/
theorem functionUnit : Obligations.FunctionUnit := by
  unfold Obligations.FunctionUnit
  refine fun s u x hp hu => ⟨exists_setRes hp ?_, exists_setRes hp ?_, exists_setRes hp ?_, exists_setRes hp ?_⟩
  · have h100 : hundred99ths = 0x3F814AFD#32 := by decide
    have h1 : hundredth = 0x3C23D70A#32 := by decide
    rw [← h100, ← h1]
    exact onFn_eq hp hu _
  · have h3 : itof 3 = 0x40400000#32 := by decide
    have h1000 : thousand999ths = 0x3F8020CD#32 := by decide
    have h1 : thousandth = 0x3A83126F#32 := by decide
    rw [← h3, ← h1000, ← h1]
    exact onFn_eq hp hu _
  · have h4 : itof 4 = 0x40800000#32 := by decide
    have h16 : sixteen15ths = 0x3F888889#32 := by decide
    have h1 : sixteenth = 0x3D800000#32 := by decide
    rw [← h4, ← h16, ← h1]
    exact onFn_eq hp hu _
  · have h20 : itof 20 = 0x41A00000#32 := by decide
    rw [← h20]
    exact onFn_eq hp hu _

/-! ## The parameters of the engine (R350 to R352) -/

theorem keyOk_iff {sub : SubField} : keyOk sub = true ↔ sub.toNat ≤ 9 := decide_eq_true_iff

section
variable {s : State} {u : UnitAddr} (hu : unitOf u = some .eng)
include hu

theorem exec_enSetP (sub : SubField) (v : Word) :
    exec (.enSetP u sub v) s = check (keyOk sub) .keyErr s (.next (s.setEng (s.eng.setParam sub.toNat v))) :=
  onEngAny_eq hu _

theorem exec_enGetP (sub : SubField) :
    exec (.enGetP u sub) s = check (keyOk sub) .keyErr s (.next (s.setRes (s.eng.param sub.toNat))) := onEngAny_eq hu _

end

theorem Engine.setParam_np (e : Engine) (k j : Fin 10) (v : F) :
    (e.setParam k.val v).np[j] = if k = j then clamp01 v else e.np[j] := by
  simp only [Engine.setParam, Fin.getElem_fin, Vector.getElem_setIfInBounds, Fin.ext_iff]

theorem Engine.setParam_dirty (e : Engine) (k : Fin 10) (v : F) :
    (e.setParam k.val v).dirty = if k = 4 then e.dirty else true := by
  show (e.dirty || (k.val != 4)) = _
  by_cases hk : k = 4
  · rw [hk, if_pos rfl]
    exact Bool.or_false _
  · have hne : (k.val != 4) = true := bne_iff_ne.2 fun h => hk (Fin.ext h)
    rw [if_neg hk, hne, Bool.or_true]

theorem Engine.param_eq (e : Engine) (k : Fin 10) : e.param k.val = e.np[k] := by
  rw [Engine.param, Vector.getElem?_eq_getElem k.isLt]
  rfl

/-- R350: a NaN is not above zero. -/
theorem clamp01_eq (v : F) : clamp01 v = if flt fzero v = false then fzero else if flt fone v then fone else v := by
  unfold clamp01
  simp only [Bool.not_eq_true']

theorem engReg_setParam (e : Engine) (k : Fin 10) (v : F) {n : Nat} (hn : ¬ (n = k.val ∨ (n = 10 ∧ k ≠ 4))) :
    engReg (e.setParam k.val v) n = engReg e n := by
  obtain ⟨hk, hd⟩ := not_or.1 hn
  unfold engReg
  split
  · next hlt =>
    have h := e.setParam_np k ⟨n, hlt⟩ v
    rw [if_neg fun hkn => hk (congrArg Fin.val hkn).symm] at h
    exact congrArg some h
  split
  · next h10 =>
    have hk4 : k = 4 := by
      by_contra h
      exact hd ⟨h10, h⟩
    rw [e.setParam_dirty k v, if_pos hk4]
  · rfl

/-- Settles O50: the registers of `ENG` after a setting, one by one. -/
theorem parameterCommands : Obligations.ParameterCommands := by
  unfold Obligations.ParameterCommands
  refine ⟨fun s u sub v hu => ⟨fun k hk => ?_, fun hkey => ?_⟩, by decide, by decide⟩
  · have hkey : keyOk sub = true := keyOk_iff.2 (by omega)
    rw [exec_enSetP hu, exec_enGetP hu, hkey, check_true, check_true, hk]
    refine ⟨⟨s.setEng (s.eng.setParam k.val v), rfl, ?_, fun j hj => ?_, ?_, s.eng.setParam_dirty k v,
      untouched_setEng s _ fun n => engReg_setParam s.eng k v⟩,
      s.setRes (s.eng.param k.val), rfl, ?_, untouched_setRes s _⟩
    · exact (s.eng.setParam_np k k v).trans ((if_pos rfl).trans (clamp01_eq v))
    · exact (s.eng.setParam_np k j v).trans (if_neg hj.symm)
    · have h := (s.eng.setParam_np k k v).trans (if_pos rfl)
      exact (congrArg (fun x => inUnit x) h).trans (inUnit_clamp01 v)
    · rw [State.res_setRes, Engine.param_eq]
  · have hno : keyOk sub = false := Bool.eq_false_iff.2 (mt keyOk_iff.1 (by omega))
    rw [exec_enSetP hu, exec_enGetP hu, hno]
    exact ⟨rfl, rfl⟩

/-! ## Faults (R402, R411, R412, R447) -/

/-- Every command answers a next state. -/
theorem exec_next (i : Instr) (s : State) : ∃ t, exec i s = .next t := by
  have h := exec_answers i s
  cases hf : i.firstFault s.port with
  | some c =>
    rw [hf] at h
    exact ⟨_, h⟩
  | none =>
    rw [hf] at h
    obtain ⟨t, ht, -⟩ := h
    exact ⟨t, ht⟩

/-- Settles O8: a word that is no command is answered as a fault, and every command answers. -/
theorem everyStepAnswersNext : Obligations.EveryStepAnswersNext := fun s => by
  unfold step
  split
  · exact ⟨_, rfl⟩
  · exact ⟨_, rfl⟩
  · split
    · exact exec_next _ _
    · exact ⟨_, rfl⟩

/-- Settles O10: the word is answered by `raise`, which the debug reads see in three registers. -/
theorem faultEffect : Obligations.FaultEffect := by
  unfold Obligations.FaultEffect
  intro s p w q c hq hf
  obtain ⟨hfault, -⟩ := decodeOrder s p w q hq
  obtain ⟨hreg, hmem, -⟩ := untouched_raise (s.accept p w q) c
  refine ⟨(s.accept p w q).raise c, hfault c hf, ?_, rfl, rfl, rfl, fun r n hn => ?_, fun r m i => ?_⟩
  · show s.sys.status ||| causeBit c = _
    cases c <;> rfl
  · exact (hreg r n hn).trans (readReg_accept s p w q n)
  · exact (hmem r m i id).trans (readMem_accept s p w q m i)

/-- A command other than `CLRF` and `RESET` keeps a set bit: it leaves the fault registers, or adds a bit. -/
theorem exec_keeps_status {i : Instr} {s t : State} {k : Nat} (hr : i ≠ .reset) (hc : i ≠ .clrf) (h : exec i s = .next t)
    (hk : s.sys.status.getLsbD k = true) : t.sys.status.getLsbD k = true := by
  have ha := exec_answers i s
  rw [h] at ha
  cases hf : i.firstFault s.port with
  | some c =>
    rw [hf] at ha
    obtain rfl := Host.Outcome.next.inj ha
    show (s.sys.status ||| causeBit c).getLsbD k = true
    rw [BitVec.getLsbD_or, hk, Bool.true_or]
  | none =>
    rw [hf] at ha
    obtain ⟨t', ht, hkeep⟩ := ha
    obtain rfl := Host.Outcome.next.inj ht
    rwa [hkeep hr hc]

/-- On port `C` both commands that clear are faults. -/
theorem exec_portC_keeps_status {i : Instr} {s t : State} {k : Nat} (hp : s.port = .C) (h : exec i s = .next t)
    (hk : s.sys.status.getLsbD k = true) : t.sys.status.getLsbD k = true := by
  by_cases hcl : i = .reset ∨ i = .clrf
  · have hfault : t = s.raise .illPort := by
      obtain rfl | rfl := hcl
      all_goals exact Host.Outcome.next.inj (h.symm.trans (onPortA_C hp _))
    rw [hfault]
    show (s.sys.status ||| causeBit .illPort).getLsbD k = true
    rw [BitVec.getLsbD_or, hk, Bool.true_or]
  · obtain ⟨hr, hc⟩ := not_or.1 hcl
    exact exec_keeps_status hr hc h hk

/-- Settles O11, by the event that happens. -/
theorem statusSticky : Obligations.StatusSticky := by
  unfold Obligations.StatusSticky
  intro s t k ht hk
  unfold step at ht
  split at ht
  · obtain rfl := Host.Outcome.next.inj ht
    exact .inl hk
  · next q hq => exact .inr (.inl ⟨q, hq⟩)
  · next p w q hq =>
    split at ht
    · next i hi =>
      cases p with
      | C => exact .inl (exec_portC_keeps_status rfl ht hk)
      | A =>
        by_cases hcl : i = .clrf ∨ i = .reset
        · exact .inr (.inr ⟨w, q, hq, by rcases hcl with rfl | rfl; exacts [.inl hi, .inr hi]⟩)
        · obtain ⟨hc, hr⟩ := not_or.1 hcl
          exact .inl (exec_keeps_status hr hc ht hk)
    · obtain rfl := Host.Outcome.next.inj ht
      left
      show (s.sys.status ||| causeBit .illOp).getLsbD k = true
      rw [BitVec.getLsbD_or, hk, Bool.true_or]

/-- What port `C` may write (R417). -/
def portCRegs (r : UnitRef) (n : Nat) : Prop := r = .eng ∨ (r = .sys ∧ n ≠ resNumber .A)

theorem untouched_raise_portC (s : State) (c : FaultCause) : Untouched s (s.raise c) portCRegs noMem :=
  (untouched_raise s c).mono (fun _ n ⟨hr, hn⟩ => .inr ⟨hr, by show n ≠ 4; omega⟩) fun _ _ _ => id

section
variable {s : State} (hp : s.port = .C)
include hp

theorem untouched_setRes_portC (v : Word) : Untouched s (s.setRes v) portCRegs noMem :=
  (untouched_setRes s v).mono (fun _ n ⟨hr, hn⟩ => .inr ⟨hr, by rw [hn, hp]; decide⟩) fun _ _ _ => id

/-- The four commands that port `C` accepts. -/
theorem untouched_exec_portC {i : Instr} (hi : i.onPortC = true) :
    Leads (fun t => Untouched s t portCRegs noMem) (exec i s) :=
  have hf := untouched_raise_portC s
  match i, hi with
  | .nop, _ => leads_next (.refl s _ _)
  | .rdreg .., _ => leads_onRegs hf fun _ => leads_putRead hf (untouched_setRes_portC hp)
  | .enSetP .., _ => leads_onEngAny hf (leads_check hf fun _ => leads_next
      ((untouched_setEng s _ (P := fun _ => True) fun _ h => absurd trivial h).mono (fun _ _ h => .inl h.1) fun _ _ _ => id))
  | .enGetP .., _ => leads_onEngAny hf (leads_check hf fun _ => leads_next (untouched_setRes_portC hp _))

end

/-- Settles O12: any other command raises a fault on port `C`. -/
theorem portCWrites : Obligations.PortCWrites := by
  unfold Obligations.PortCWrites
  intro i s t hp ht
  cases hi : i.onPortC with
  | true => exact untouched_exec_portC hp hi t ht
  | false =>
    have ha := exec_answers i s
    rw [firstFault_eq, portFault, if_pos ⟨hp, hi⟩, ht] at ha
    obtain rfl := Host.Outcome.next.inj ha
    exact untouched_raise_portC s _

end Sys2Proof.Machine
end

section
/-! The fault registers are invisible to the commands (spec/60_exceptions.md R401): two machines that differ in them, and in
the word they record, answer alike. -/

namespace Sys2Proof.Machine

/-- The machine with other fault registers and another word in execution. -/
def State.relabel (s : State) (f : Sys) (w : Command) : State := { s with sys := f, word := w }

/-! ## The state operations on a relabelled machine -/

section
variable (s : State) (f : Sys) (w : Command)

@[simp] theorem State.chan_relabel (sd : Side) : (s.relabel f w).chan sd = s.chan sd := by cases sd <;> rfl

@[simp] theorem State.line_relabel (sd : Side) (j : Fin 12) : (s.relabel f w).line sd j = s.line sd j := by
  rw [State.line, State.chan_relabel, State.line]

@[simp] theorem State.lp1_relabel (r : Lp1Ref) : (s.relabel f w).lp1 r = s.lp1 r := by
  cases r <;> simp only [State.lp1, State.chan_relabel, State.line_relabel]

@[simp] theorem State.hp1_relabel (sd : Side) : (s.relabel f w).hp1 sd = s.hp1 sd := by
  simp only [State.hp1, State.chan_relabel]

@[simp] theorem State.shelf_relabel (r : ShelfRef) : (s.relabel f w).shelf r = s.shelf r := by
  simp only [State.shelf, State.line_relabel]

@[simp] theorem State.diff_relabel (r : DiffRef) : (s.relabel f w).diff r = s.diff r := by
  cases r <;> simp only [State.diff, State.chan_relabel, State.line_relabel]

@[simp] theorem State.map_relabel (r : MapRef) : (s.relabel f w).map r = s.map r := by
  simp only [State.map, State.diff_relabel]

@[simp] theorem State.mdly_relabel (r : MdlyRef) : (s.relabel f w).mdly r = s.mdly r := by
  cases r <;> simp only [State.mdly, State.chan_relabel, State.line_relabel]

@[simp] theorem State.mtap_relabel (sd : Side) : (s.relabel f w).mtap sd = s.mtap sd := by
  simp only [State.mtap, State.chan_relabel]

@[simp] theorem State.setRes_relabel (v : Word) : (s.relabel f w).setRes v = (s.setRes v).relabel f w := by
  unfold State.setRes State.relabel
  cases s.port <;> rfl

@[simp] theorem State.setChan_relabel (sd : Side) (c : Channel) :
    (s.relabel f w).setChan sd c = (s.setChan sd c).relabel f w := by cases sd <;> rfl

@[simp] theorem State.setLine_relabel (sd : Side) (j : Fin 12) (l : DelayLine) :
    (s.relabel f w).setLine sd j l = (s.setLine sd j l).relabel f w := by
  simp only [State.setLine, State.chan_relabel, State.setChan_relabel]

@[simp] theorem State.setLp1_relabel (r : Lp1Ref) (u : OnePole) :
    (s.relabel f w).setLp1 r u = (s.setLp1 r u).relabel f w := by
  cases r <;> simp only [State.setLp1, State.chan_relabel, State.line_relabel, State.setChan_relabel, State.setLine_relabel]

@[simp] theorem State.setHp1_relabel (sd : Side) (u : OnePole) :
    (s.relabel f w).setHp1 sd u = (s.setHp1 sd u).relabel f w := by
  simp only [State.setHp1, State.chan_relabel, State.setChan_relabel]

@[simp] theorem State.setShelf_relabel (r : ShelfRef) (u : Shelf) :
    (s.relabel f w).setShelf r u = (s.setShelf r u).relabel f w := by
  obtain ⟨sd, j, k⟩ := r
  cases k <;> simp only [State.setShelf, State.line_relabel, State.setLine_relabel]

@[simp] theorem State.setDiff_relabel (r : DiffRef) (d : Diffuser) :
    (s.relabel f w).setDiff r d = (s.setDiff r d).relabel f w := by
  cases r <;>
    simp only [State.setDiff, State.chan_relabel, State.line_relabel, State.setChan_relabel, State.setLine_relabel]

@[simp] theorem State.setMap_relabel (r : MapRef) (a : Allpass) :
    (s.relabel f w).setMap r a = (s.setMap r a).relabel f w := by
  simp only [State.setMap, State.diff_relabel, State.setDiff_relabel]

@[simp] theorem State.setMdly_relabel (r : MdlyRef) (u : ModDelay) :
    (s.relabel f w).setMdly r u = (s.setMdly r u).relabel f w := by
  cases r <;>
    simp only [State.setMdly, State.chan_relabel, State.line_relabel, State.setChan_relabel, State.setLine_relabel]

@[simp] theorem State.setMtap_relabel (sd : Side) (u : Multitap) :
    (s.relabel f w).setMtap sd u = (s.setMtap sd u).relabel f w := by
  simp only [State.setMtap, State.chan_relabel, State.setChan_relabel]

theorem State.setRng_relabel (r : Rng) : (s.relabel f w).setRng r = (s.setRng r).relabel f w := rfl

theorem State.setRbuf_relabel (b : Rbuf) : (s.relabel f w).setRbuf b = (s.setRbuf b).relabel f w := rfl

theorem State.setEng_relabel (e : Engine) : (s.relabel f w).setEng e = (s.setEng e).relabel f w := rfl

theorem State.setIo_relabel (b : Fin 4) (m : Mem) : (s.relabel f w).setIo b m = (s.setIo b m).relabel f w := rfl

theorem State.putBlock_relabel (b : Fin 4) (o : List F) :
    (s.relabel f w).putBlock b o = (s.putBlock b o).relabel f w := rfl

theorem State.block_relabel (b : Fin 4) (n : Nat) : (s.relabel f w).block b n = s.block b n := rfl

theorem State.procLine_relabel (sd : Side) (j : Fin 12) (n : Nat) :
    (s.relabel f w).procLine sd j n = (s.procLine sd j n).relabel f w := by
  simp only [State.procLine, State.line_relabel, State.block_relabel, State.setLine_relabel, State.putBlock_relabel]

theorem State.procChan_relabel (sd : Side) (n : Nat) :
    (s.relabel f w).procChan sd n = (s.procChan sd n).relabel f w := by
  simp only [State.procChan, State.chan_relabel, State.block_relabel, State.setChan_relabel, State.putBlock_relabel]

theorem State.procFrames_relabel (n : Nat) : (s.relabel f w).procFrames n = (s.procFrames n).relabel f w := by
  have hl : (s.relabel f w).left = s.left := rfl
  have hr : (s.relabel f w).right = s.right := rfl
  have he : (s.relabel f w).eng = s.eng := rfl
  rw [State.procFrames_eq, State.procFrames_eq, hl, hr, he]
  simp only [State.setChan_relabel, State.putBlock_relabel, State.block_relabel]

theorem State.clearChannels_relabel : (s.relabel f w).clearChannels = s.clearChannels.relabel f w := rfl

theorem State.engSync_relabel : (s.relabel f w).engSync = s.engSync.relabel f w := by
  have he : (s.relabel f w).eng = s.eng := rfl
  have hs (sd : Side) : (s.relabel f w).synced sd = s.synced sd := by
    rw [State.synced, he, State.chan_relabel, State.synced]
  cases hd : s.eng.dirty with
  | false => rw [State.engSync_of_clean hd, State.engSync_of_clean (s := s.relabel f w) hd]
  | true =>
    rw [State.engSync_of_dirty hd, State.engSync_of_dirty (s := s.relabel f w) hd, hs, hs, he, State.setEng_relabel,
      State.setChan_relabel, State.setChan_relabel]

/-- Only the four fault registers of `SYS` show the difference. -/
theorem readReg_relabel {r : UnitRef} {n : Nat} (h : r = .sys → 4 ≤ n) :
    readReg (s.relabel f w) r n = readReg s r n := by
  cases r with
  | sys =>
    match n, h rfl with
    | 4, _ | 5, _ | _ + 6, _ => rfl
  | eng | rng | rbuf | fn | io => rfl
  | _ =>
    simp only [readReg, State.chan_relabel, State.line_relabel, State.lp1_relabel, State.hp1_relabel,
      State.shelf_relabel, State.diff_relabel, State.map_relabel, State.mdly_relabel, State.mtap_relabel]

theorem readMem_relabel (r : UnitRef) (m i : Nat) : readMem (s.relabel f w) r m i = readMem s r m i := by
  cases r with
  | rbuf | io => rfl
  | _ =>
    simp only [readMem, unitMem, State.line_relabel, State.diff_relabel, State.map_relabel, State.mdly_relabel,
      State.mtap_relabel]

end

/-! ## Two machines side by side -/

/-- Whatever the first machine answers, the second answers the same but for the labels. -/
def Follows (w : Command) (o o' : Out) : Prop := ∀ t, o = .next t → ∃ g, o' = .next (t.relabel g w)

section
variable {s : State} {f : Sys} {w : Command} {u : UnitAddr}

theorem follows_next {t t' : State} (h : t' = t.relabel f w) : Follows w (.next t) (.next t') := by
  rintro _ ⟨⟩
  exact ⟨f, congrArg _ h⟩

theorem follows_fail (c : FaultCause) : Follows w (fail c s) (fail c (s.relabel f w)) := by
  rintro _ ⟨⟩
  exact ⟨_, rfl⟩

theorem follows_check {ok : Bool} {c : FaultCause} {k k' : Out} (h : Follows w k k') :
    Follows w (check ok c s k) (check ok c (s.relabel f w) k') := by
  cases ok with
  | true => exact h
  | false => exact follows_fail c

theorem follows_onPortA {k k' : Out} (h : Follows w k k') : Follows w (onPortA s k) (onPortA (s.relabel f w) k') := by
  unfold onPortA
  show Follows w _ (if s.port = .A then k' else _)
  split
  · exact h
  · exact follows_fail _

theorem follows_putRead {v v' : Option Word} (h : v' = v) : Follows w (putRead s v) (putRead (s.relabel f w) v') := by
  subst h
  cases v' with
  | some x => exact follows_next (s.setRes_relabel f w x)
  | none => exact follows_fail _

theorem follows_onRegs {k k' : UnitRef → Out} (h : ∀ r, unitOf u = some r → Follows w (k r) (k' r)) :
    Follows w (onRegs u s k) (onRegs u (s.relabel f w) k') := by
  unfold onRegs
  cases hu : unitOf u with
  | none => exact follows_fail _
  | some r =>
    show Follows w (if hasRegs r then _ else _) (if hasRegs r then _ else _)
    split
    · exact h r hu
    · exact follows_fail _

theorem follows_onMems {k k' : UnitRef → Out} (h : ∀ r, Follows w (k r) (k' r)) :
    Follows w (onMems u s k) (onMems u (s.relabel f w) k') := by
  refine follows_onPortA ?_
  cases unitOf u with
  | none => exact follows_fail _
  | some r =>
    show Follows w (if hasMems r then _ else _) (if hasMems r then _ else _)
    split
    · exact h r
    · exact follows_fail _

theorem follows_onRng {k k' : Out} (h : Follows w k k') :
    Follows w (onRng u s k) (onRng u (s.relabel f w) k') := by
  refine follows_onPortA ?_
  rcases unitOf u with _ | r
  · exact follows_fail _
  cases r with
  | rng => exact h
  | _ => exact follows_fail _

theorem follows_onRbuf {k k' : Out} (h : Follows w k k') :
    Follows w (onRbuf u s k) (onRbuf u (s.relabel f w) k') := by
  refine follows_onPortA ?_
  rcases unitOf u with _ | r
  · exact follows_fail _
  cases r with
  | rbuf => exact h
  | _ => exact follows_fail _

theorem follows_onFn {k k' : Out} (h : Follows w k k') :
    Follows w (onFn u s k) (onFn u (s.relabel f w) k') := by
  refine follows_onPortA ?_
  rcases unitOf u with _ | r
  · exact follows_fail _
  cases r with
  | fn => exact h
  | _ => exact follows_fail _

theorem follows_onEngAny {k k' : Out} (h : Follows w k k') :
    Follows w (onEngAny u s k) (onEngAny u (s.relabel f w) k') := by
  unfold onEngAny
  rcases unitOf u with _ | r
  · exact follows_fail _
  cases r with
  | eng => exact h
  | _ => exact follows_fail _

theorem follows_onIo {k k' : Fin 4 → Out} (h : ∀ b, Follows w (k b) (k' b)) :
    Follows w (onIo u s k) (onIo u (s.relabel f w) k') := by
  refine follows_onPortA ?_
  rcases unitOf u with _ | r
  · exact follows_fail _
  cases r with
  | io b => exact h b
  | _ => exact follows_fail _

theorem follows_onLp1 {k k' : Lp1Ref → Out} (h : ∀ r, Follows w (k r) (k' r)) :
    Follows w (onLp1 u s k) (onLp1 u (s.relabel f w) k') := by
  refine follows_onPortA ?_
  rcases unitOf u with _ | r
  · exact follows_fail _
  cases r with
  | lp1 r => exact h r
  | _ => exact follows_fail _

theorem follows_onHp1 {k k' : Side → Out} (h : ∀ sd, Follows w (k sd) (k' sd)) :
    Follows w (onHp1 u s k) (onHp1 u (s.relabel f w) k') := by
  refine follows_onPortA ?_
  rcases unitOf u with _ | r
  · exact follows_fail _
  cases r with
  | hp1 sd => exact h sd
  | _ => exact follows_fail _

theorem follows_onShelf {k k' : ShelfRef → Out} (h : ∀ r, Follows w (k r) (k' r)) :
    Follows w (onShelf u s k) (onShelf u (s.relabel f w) k') := by
  refine follows_onPortA ?_
  rcases unitOf u with _ | r
  · exact follows_fail _
  cases r with
  | shelf r => exact h r
  | _ => exact follows_fail _

theorem follows_onMap {k k' : MapRef → Out} (h : ∀ r, Follows w (k r) (k' r)) :
    Follows w (onMap u s k) (onMap u (s.relabel f w) k') := by
  refine follows_onPortA ?_
  rcases unitOf u with _ | r
  · exact follows_fail _
  cases r with
  | map r => exact h r
  | _ => exact follows_fail _

theorem follows_onDiff {k k' : DiffRef → Out} (h : ∀ r, Follows w (k r) (k' r)) :
    Follows w (onDiff u s k) (onDiff u (s.relabel f w) k') := by
  refine follows_onPortA ?_
  rcases unitOf u with _ | r
  · exact follows_fail _
  cases r with
  | diff r => exact h r
  | _ => exact follows_fail _

theorem follows_onMdly {k k' : MdlyRef → Out} (h : ∀ r, Follows w (k r) (k' r)) :
    Follows w (onMdly u s k) (onMdly u (s.relabel f w) k') := by
  refine follows_onPortA ?_
  rcases unitOf u with _ | r
  · exact follows_fail _
  cases r with
  | mdly r => exact h r
  | _ => exact follows_fail _

theorem follows_onMtap {k k' : Side → Out} (h : ∀ sd, Follows w (k sd) (k' sd)) :
    Follows w (onMtap u s k) (onMtap u (s.relabel f w) k') := by
  refine follows_onPortA ?_
  rcases unitOf u with _ | r
  · exact follows_fail _
  cases r with
  | mtap sd => exact h sd
  | _ => exact follows_fail _

theorem follows_onLine {k k' : Side → Fin 12 → Out} (h : ∀ sd j, Follows w (k sd j) (k' sd j)) :
    Follows w (onLine u s k) (onLine u (s.relabel f w) k') := by
  refine follows_onPortA ?_
  rcases unitOf u with _ | r
  · exact follows_fail _
  cases r with
  | dline sd j => exact h sd j
  | _ => exact follows_fail _

theorem follows_onChan {k k' : Side → Out} (h : ∀ sd, Follows w (k sd) (k' sd)) :
    Follows w (onChan u s k) (onChan u (s.relabel f w) k') := by
  refine follows_onPortA ?_
  rcases unitOf u with _ | r
  · exact follows_fail _
  cases r with
  | chan sd => exact h sd
  | _ => exact follows_fail _

theorem follows_onEng {k k' : Out} (h : Follows w k k') : Follows w (onEng u s k) (onEng u (s.relabel f w) k') :=
  follows_onPortA (follows_onEngAny h)

end

/-! ## The commands -/

section
variable (s : State) (f : Sys) (w : Command)

/-- Every command answers the same but for the labels, `RDREG` of a fault register apart. -/
theorem follows_exec (i : Instr) (hi : ∀ u sub, i = .rdreg u sub → unitOf u = some .sys → 4 ≤ sub.toNat) :
    Follows w (exec i s) (exec i (s.relabel f w)) :=
  match i, hi with
  | .nop, _ => follows_next rfl
  | .reset, _ => follows_onPortA (follows_next rfl)
  | .rdreg u sub, hi =>
    follows_onRegs fun _ hu => follows_putRead (readReg_relabel s f w fun e => hi u sub rfl (hu.trans (congrArg some e)))
  | .rdmem .., _ => follows_onMems fun r => follows_putRead (readMem_relabel s f w r _ _)
  | .clrf, _ => follows_onPortA (follows_next rfl)
  | .ioWr .., _ => follows_onIo fun _ => follows_check (follows_next (rfl))
  | .ioRd .., _ => follows_onIo fun _ => follows_check (follows_next (s.setRes_relabel f w _))
  | .rngSeed .., _ => follows_onRng (follows_next (rfl))
  | .rngNext _, _ => follows_onRng (follows_next ((s.setRng _).setRes_relabel f w _))
  | .rbSetSeed .., _ => follows_onRbuf (follows_next (rfl))
  | .rbSetX .., _ => follows_onRbuf (follows_check (follows_next (rfl)))
  | .rbGen .., _ => follows_onRbuf (follows_check (follows_next (rfl)))
  | .rbGenX .., _ => follows_onRbuf (follows_check (follows_next (rfl)))
  | .lpSetFc .., _ => follows_onLp1 fun _ => follows_check (follows_next (f := f) (by simp))
  | .lpStep .., _ => follows_onLp1 fun _ => follows_next (f := f) (by simp)
  | .lpClr _, _ => follows_onLp1 fun _ => follows_next (f := f) (by simp)
  | .hpSetFc .., _ => follows_onHp1 fun _ => follows_check (follows_next (f := f) (by simp))
  | .hpStep .., _ => follows_onHp1 fun _ => follows_next (f := f) (by simp)
  | .hpClr _, _ => follows_onHp1 fun _ => follows_next (f := f) (by simp)
  | .shSetF .., _ => follows_onShelf fun _ => follows_check (follows_next (f := f) (by simp))
  | .shSetG .., _ => follows_onShelf fun _ => follows_check (follows_next (f := f) (by simp))
  | .shStep .., _ => follows_onShelf fun _ => follows_next (f := f) (by simp)
  | .shClr _, _ => follows_onShelf fun _ => follows_next (f := f) (by simp)
  | .apSetDly .., _ => follows_onMap fun _ => follows_check (follows_next (f := f) (by simp))
  | .apSetFb .., _ => follows_onMap fun _ => follows_check (follows_next (f := f) (by simp))
  | .apSetModA .., _ => follows_onMap fun _ => follows_check (follows_next (f := f) (by simp))
  | .apSetModR .., _ => follows_onMap fun _ => follows_check (follows_next (f := f) (by simp))
  | .apSetInterp .., _ => follows_onMap fun _ => follows_check (follows_next (f := f) (by simp))
  | .apSetModEn .., _ => follows_onMap fun _ => follows_check (follows_next (f := f) (by simp))
  | .apStep .., _ => follows_onMap fun _ => follows_next (f := f) (by simp)
  | .apClr _, _ => follows_onMap fun _ => follows_next (f := f) (by simp)
  | .dfSetStages .., _ => follows_onDiff fun _ => follows_check (follows_next (f := f) (by simp))
  | .dfSetDly .., _ => follows_onDiff fun _ => follows_check (follows_next (f := f) (by simp))
  | .dfSetFb .., _ => follows_onDiff fun _ => follows_check (follows_next (f := f) (by simp))
  | .dfSetModA .., _ => follows_onDiff fun _ => follows_check (follows_next (f := f) (by simp))
  | .dfSetModR .., _ => follows_onDiff fun _ => follows_check (follows_next (f := f) (by simp))
  | .dfSetSeed .., _ => follows_onDiff fun _ => follows_next (f := f) (by simp)
  | .dfSetX .., _ => follows_onDiff fun _ => follows_check (follows_next (f := f) (by simp))
  | .dfSetInterp .., _ => follows_onDiff fun _ => follows_check (follows_next (f := f) (by simp))
  | .dfSetModEn .., _ => follows_onDiff fun _ => follows_check (follows_next (f := f) (by simp))
  | .dfStep .., _ => follows_onDiff fun _ => follows_next (f := f) (by simp)
  | .dfClr _, _ => follows_onDiff fun _ => follows_next (f := f) (by simp)
  | .mdSetDly .., _ => follows_onMdly fun _ => follows_check (follows_next (f := f) (by simp))
  | .mdSetModA .., _ => follows_onMdly fun _ => follows_check (follows_next (f := f) (by simp))
  | .mdSetModR .., _ => follows_onMdly fun _ => follows_check (follows_next (f := f) (by simp))
  | .mdStep .., _ => follows_onMdly fun _ => follows_next (f := f) (by simp)
  | .mdClr _, _ => follows_onMdly fun _ => follows_next (f := f) (by simp)
  | .mtSetTaps .., _ => follows_onMtap fun _ => follows_check (follows_next (f := f) (by simp))
  | .mtSetLen .., _ => follows_onMtap fun _ => follows_check (follows_next (f := f) (by simp))
  | .mtSetDecay .., _ => follows_onMtap fun _ => follows_check (follows_next (f := f) (by simp))
  | .mtSetSeed .., _ => follows_onMtap fun _ => follows_next (f := f) (by simp)
  | .mtSetX .., _ => follows_onMtap fun _ => follows_check (follows_next (f := f) (by simp))
  | .mtStep .., _ => follows_onMtap fun _ => follows_next (f := f) (by simp)
  | .mtClr _, _ => follows_onMtap fun _ => follows_next (f := f) (by simp)
  | .dlSetFb .., _ => follows_onLine fun _ _ => follows_check (follows_next (f := f) (by simp))
  | .dlSetFlags .., _ => follows_onLine fun _ _ => follows_check (follows_next (f := f) (by simp))
  | .dlProc .., _ => follows_onLine fun _ _ => follows_check (follows_next (s.procLine_relabel f w _ _ _))
  | .dlClr _, _ => follows_onLine fun _ _ => follows_next (f := f) (by simp)
  | .chSetInMix .., _ => follows_onChan fun _ => follows_check (follows_next (f := f) (by simp))
  | .chSetFlags .., _ => follows_onChan fun _ => follows_check (follows_next (f := f) (by simp))
  | .chSetLines .., _ => follows_onChan fun _ => follows_check (follows_next (f := f) (by simp))
  | .chSetDecay .., _ => follows_onChan fun _ => follows_check (follows_next (f := f) (by simp))
  | .chSetDry .., _ => follows_onChan fun _ => follows_check (follows_next (f := f) (by simp))
  | .chSetEarly .., _ => follows_onChan fun _ => follows_check (follows_next (f := f) (by simp))
  | .chSetLineOut .., _ => follows_onChan fun _ => follows_check (follows_next (f := f) (by simp))
  | .chSetX .., _ => follows_onChan fun _ => follows_check (follows_next (f := f) (by simp))
  | .chProc .., _ => follows_onChan fun _ => follows_check (follows_next (s.procChan_relabel f w _ _))
  | .chClr _, _ => follows_onChan fun _ => follows_next (f := f) (by simp)
  | .enSetP .., _ => follows_onEngAny (follows_check (follows_next (rfl)))
  | .enGetP .., _ => follows_onEngAny (follows_check (follows_next (s.setRes_relabel f w _)))
  | .enProc .., _ => follows_onEng (follows_check (follows_next (by rw [State.engSync_relabel, State.procFrames_relabel])))
  | .enClr _, _ => follows_onEng (follows_next (rfl))
  | .enSync _, _ => follows_onEng (follows_next (s.engSync_relabel f w))
  | .fnR2d .., _ => follows_onFn (follows_next (s.setRes_relabel f w _))
  | .fnR3d .., _ => follows_onFn (follows_next (s.setRes_relabel f w _))
  | .fnR4o .., _ => follows_onFn (follows_next (s.setRes_relabel f w _))
  | .fnDb2Lin .., _ => follows_onFn (follows_next (s.setRes_relabel f w _))

/-- Settles O13: the label of the answer is whatever the second machine records. -/
theorem faultsInvisible : Obligations.FaultsInvisible := by
  unfold Obligations.FaultsInvisible
  exact fun i s t f w hi ht => follows_exec s f w i hi t ht

end

end Sys2Proof.Machine
end

section
/-! `ApplyConfig` (spec/49_engine.md R363): which register holds which field of the record, what is derived again, and what
signal state stays. -/

namespace Sys2Proof.Machine

/-! ## The registers of a diffuser through a re-derivation (R223) -/

section
variable (cfg : Config.Params) (d : Diffuser)

theorem deriveStage_keeps (k : Nat) (a : Allpass) :
    (deriveStage cfg d k a).fb = a.fb ∧ (deriveStage cfg d k a).flags = a.flags := by
  obtain ⟨m, x, y, t, he⟩ := exists_deriveStage_eq cfg d k a
  rw [he]
  exact ⟨rfl, rfl⟩

theorem Diffuser.update_stage_fb (k : Fin 12) : (d.update cfg).stage[k].fb = d.stage[k].fb := by
  rw [Diffuser.update_stage]
  exact (deriveStage_keeps cfg _ _ _).1

theorem Diffuser.update_stage_flags (k : Fin 12) : (d.update cfg).stage[k].flags = d.stage[k].flags := by
  rw [Diffuser.update_stage]
  exact (deriveStage_keeps cfg _ _ _).2

theorem Diffuser.update_stages : (d.update cfg).stages = d.stages := by
  simp only [Diffuser.update, Diffuser.deriveStages, Diffuser.draw]

theorem Diffuser.update_fb : (d.update cfg).fb = d.fb := by
  simp only [Diffuser.update, Diffuser.deriveStages, Diffuser.draw]

theorem Diffuser.update_flags : (d.update cfg).flags = d.flags := by
  simp only [Diffuser.update, Diffuser.deriveStages, Diffuser.draw]

end

/-! ## One unit (R363) -/

section
variable {cfg : Config.Params}

/-- The second bit of two does not change the first. -/
theorem flags_putBit (f : BitVec 2) (a b : Bool) :
    flagInterp (putBit (putBit f 0 a) 1 b) = a ∧ flagModEn (putBit (putBit f 0 a) 1 b) = b := by
  revert f a b
  decide

theorem applyDelay_holds (u : ModDelay) (k : Config.DelayConfig) : (applyDelay cfg u k).Holds k := by
  unfold applyDelay ModDelay.setDly ModDelay.setModA ModDelay.setModR ModDelay.retap
  exact ⟨rfl, rfl, rfl⟩

theorem applyDelay_sameSignal (u : ModDelay) (k : Config.DelayConfig) : u.SameSignal (applyDelay cfg u k) := by
  unfold applyDelay ModDelay.setDly ModDelay.setModA ModDelay.setModR ModDelay.retap
  exact ⟨rfl, rfl, rfl, rfl⟩

/-- Flags and gain of a stage after the eight settings. -/
theorem applyDiffuser_stage (d : Diffuser) (k : Config.DiffuserConfig) (i : Fin 12) :
    (applyDiffuser cfg d k).stage[i].fb = k.fb ∧
      (applyDiffuser cfg d k).stage[i].flags = putBit (putBit d.stage[i].flags 0 k.interp) 1 k.modEn := by
  simp only [applyDiffuser, Diffuser.setModEn, Diffuser.setInterp, Allpass.setModEn, Allpass.setInterp, getElem_vecMap,
    Diffuser.setSeed, Diffuser.setModR, Diffuser.setModA, Diffuser.update_stage_fb, Diffuser.update_stage_flags,
    Diffuser.setFb, Allpass.setFb, Diffuser.setDly, Diffuser.setStages, and_self]

theorem applyDiffuser_flags (d : Diffuser) (k : Config.DiffuserConfig) :
    (applyDiffuser cfg d k).flags = putBit (putBit d.flags 0 k.interp) 1 k.modEn := by
  simp only [applyDiffuser, Diffuser.setModEn, Diffuser.setInterp, Diffuser.setSeed, Diffuser.setModR, Diffuser.setModA,
    Diffuser.update_flags, Diffuser.setFb, Diffuser.setDly, Diffuser.setStages]

theorem applyDiffuser_holds (d : Diffuser) (k : Config.DiffuserConfig) : (applyDiffuser cfg d k).Holds k d.xseed where
  stages := by
    simp only [applyDiffuser, Diffuser.setModEn, Diffuser.setInterp, Diffuser.setSeed, Diffuser.setModR, Diffuser.setModA,
      Diffuser.update_stages, Diffuser.setFb, Diffuser.setDly, Diffuser.setStages]
  dly := by
    simp only [applyDiffuser, Diffuser.setModEn, Diffuser.setInterp, Diffuser.setSeed, Diffuser.setModR, Diffuser.setModA,
      Diffuser.update_dly, Diffuser.setFb, Diffuser.setDly]
  fb := by
    simp only [applyDiffuser, Diffuser.setModEn, Diffuser.setInterp, Diffuser.setSeed, Diffuser.setModR, Diffuser.setModA,
      Diffuser.update_fb, Diffuser.setFb]
  modA := by
    simp only [applyDiffuser, Diffuser.setModEn, Diffuser.setInterp, Diffuser.setSeed, Diffuser.setModR, Diffuser.setModA,
      Diffuser.update_modA]
  modR := by
    simp only [applyDiffuser, Diffuser.setModEn, Diffuser.setInterp, Diffuser.setSeed, Diffuser.setModR, Diffuser.update_modR]
  seed := applyDiffuser_seed cfg d k
  xseed := by
    simp only [applyDiffuser, Diffuser.setModEn, Diffuser.setInterp, Diffuser.setSeed, Diffuser.setModR, Diffuser.setModA,
      Diffuser.update_xseed, Diffuser.setFb, Diffuser.setDly, Diffuser.setStages]
  interp := by
    rw [applyDiffuser_flags]
    exact (flags_putBit _ _ _).1
  modEn := by
    rw [applyDiffuser_flags]
    exact (flags_putBit _ _ _).2
  stageFb i := (applyDiffuser_stage d k i).1
  stageInterp i := by
    rw [(applyDiffuser_stage d k i).2]
    exact (flags_putBit _ _ _).1
  stageModEn i := by
    rw [(applyDiffuser_stage d k i).2]
    exact (flags_putBit _ _ _).2

/-- A new cross seed leaves every other field. -/
theorem Diffuser.Holds.setX {d : Diffuser} {k : Config.DiffuserConfig} {x : F} (h : d.Holds k x) (y : F) :
    (d.setX cfg y).Holds k y where
  stages := (Diffuser.update_stages cfg _).trans h.stages
  dly := (Diffuser.update_dly cfg _).trans h.dly
  fb := (Diffuser.update_fb cfg _).trans h.fb
  modA := (Diffuser.update_modA cfg _).trans h.modA
  modR := (Diffuser.update_modR cfg _).trans h.modR
  seed := (Diffuser.update_seed cfg _).trans h.seed
  xseed := Diffuser.setX_xseed cfg y d
  interp := (congrArg flagInterp (Diffuser.update_flags cfg _)).trans h.interp
  modEn := (congrArg flagModEn (Diffuser.update_flags cfg _)).trans h.modEn
  stageFb i := (Diffuser.update_stage_fb cfg _ i).trans (h.stageFb i)
  stageInterp i := (congrArg flagInterp (Diffuser.update_stage_flags cfg _ i)).trans (h.stageInterp i)
  stageModEn i := (congrArg flagModEn (Diffuser.update_stage_flags cfg _ i)).trans (h.stageModEn i)

theorem ModDelay.SameSignal.trans {u v w : ModDelay} (h : u.SameSignal v) (h' : v.SameSignal w) : u.SameSignal w :=
  ⟨h'.phase.trans h.phase, h'.cnt.trans h.cnt, h'.widx.trans h.widx, h'.buf.trans h.buf⟩

theorem Diffuser.SameSignal.trans {d e g : Diffuser} (h : d.SameSignal e) (h' : e.SameSignal g) : d.SameSignal g :=
  fun k => (h k).trans (h' k)

/-- A setting of all stages that leaves their delays. -/
theorem Diffuser.sameSignal_mapStages (d : Diffuser) (g : F) (b : BitVec 2) {f : Allpass → Allpass}
    (hf : ∀ a, (f a).core = a.core) : d.SameSignal { d with fb := g, flags := b, stage := vecMap f d.stage } := fun k => by
  rw [getElem_vecMap, hf]
  exact ⟨rfl, rfl, rfl, rfl⟩

theorem Diffuser.setFb_sameSignal (d : Diffuser) (g : F) : d.SameSignal (d.setFb g) :=
  d.sameSignal_mapStages g d.flags fun _ => rfl

theorem Diffuser.setInterp_sameSignal (d : Diffuser) (b : Bool) : d.SameSignal (d.setInterp b) :=
  d.sameSignal_mapStages d.fb _ fun _ => rfl

theorem Diffuser.setModEn_sameSignal (d : Diffuser) (b : Bool) : d.SameSignal (d.setModEn b) :=
  d.sameSignal_mapStages d.fb _ fun _ => rfl

theorem Diffuser.setDly_sameSignal (d : Diffuser) (n : Nat) : d.SameSignal (d.setDly cfg n) :=
  Diffuser.sameSignal_update cfg { d with dly := n }

theorem Diffuser.setModA_sameSignal (d : Diffuser) (a : F) : d.SameSignal (d.setModA cfg a) :=
  Diffuser.sameSignal_update cfg { d with modA := a }

theorem Diffuser.setModR_sameSignal (d : Diffuser) (r : F) : d.SameSignal (d.setModR cfg r) :=
  Diffuser.sameSignal_update cfg { d with modR := r }

theorem Diffuser.setSeed_sameSignal (d : Diffuser) (seed : Word) : d.SameSignal (d.setSeed cfg seed) :=
  Diffuser.sameSignal_update cfg { d with seed := seed }

theorem applyDiffuser_sameSignal (d : Diffuser) (k : Config.DiffuserConfig) : d.SameSignal (applyDiffuser cfg d k) := by
  have hdly : d.SameSignal ((d.setStages k.stages).setDly cfg k.dly) := (d.setStages k.stages).setDly_sameSignal k.dly
  have hseed := (((hdly.trans (Diffuser.setFb_sameSignal _ k.fb)).trans
    (Diffuser.setModA_sameSignal (cfg := cfg) _ k.modA)).trans (Diffuser.setModR_sameSignal (cfg := cfg) _ k.modR)).trans
    (Diffuser.setSeed_sameSignal (cfg := cfg) _ k.seed)
  exact (hseed.trans (Diffuser.setInterp_sameSignal _ k.interp)).trans (Diffuser.setModEn_sameSignal _ k.modEn)

theorem applyMultitap_holds (u : Multitap) (k : Config.MultitapConfig) : (applyMultitap cfg u k).Holds k u.xseed := by
  obtain ⟨a, b, c, he⟩ := Multitap.exists_update_eq cfg
    { ((u.setTaps k.taps).setLen k.len).setDecay k.decay with seed := k.seed }
  rw [applyMultitap, Multitap.setSeed, he]
  exact ⟨rfl, rfl, rfl, rfl, rfl⟩

theorem Multitap.Holds.setX {u : Multitap} {k : Config.MultitapConfig} {x : F} (h : u.Holds k x) (y : F) :
    (u.setX cfg y).Holds k y := by
  obtain ⟨a, b, c, he⟩ := Multitap.exists_update_eq cfg { u with xseed := y }
  rw [Multitap.setX, he]
  exact ⟨h.taps, h.len, h.decay, h.seed, rfl⟩

theorem applyMultitap_cursor (u : Multitap) (k : Config.MultitapConfig) :
    (applyMultitap cfg u k).widx = u.widx ∧ (applyMultitap cfg u k).buf = u.buf := by
  obtain ⟨a, b, c, he⟩ := Multitap.exists_update_eq cfg
    { ((u.setTaps k.taps).setLen k.len).setDecay k.decay with seed := k.seed }
  rw [applyMultitap, Multitap.setSeed, he]
  exact ⟨rfl, rfl⟩

/-! ## A line and a channel (R363) -/

/-- A line after the whole list of settings: its own, then the cross seed of its diffuser, then its gain. -/
theorem applyConfig_line (c : Channel) (k : Config.ChannelConfig) (j : Fin 12) :
    (applyConfig cfg c k).line[j] =
      { applyLine cfg c.line[j] k.line[j] with
        df := (applyDiffuser cfg c.line[j].df k.line[j].df).setX cfg k.xseed
        fb := lineFb cfg (applyDelay cfg c.line[j].delay k.line[j].delay).dly k.decayT } := by
  rw [applyConfig, Channel.setDecay_line, Channel.setX_line, applyBelow_line]
  rfl

theorem applyConfig_line_holds (c : Channel) (k : Config.ChannelConfig) (j : Fin 12) :
    (applyConfig cfg c k).line[j].Holds cfg k.line[j] k.xseed k.decayT := by
  have hdelay : (applyDelay cfg c.line[j].delay k.line[j].delay).Holds k.line[j].delay := applyDelay_holds _ _
  rw [applyConfig_line]
  exact ⟨congrArg (lineFb cfg · k.decayT) hdelay.dly, rfl, hdelay, (applyDiffuser_holds _ _).setX _, rfl, rfl, rfl, rfl, rfl⟩

theorem applyConfig_holds (c : Channel) (k : Config.ChannelConfig) : (applyConfig cfg c k).Holds cfg k where
  inMix := rfl
  flags := rfl
  lines := rfl
  decayT := rfl
  dry := rfl
  early := rfl
  lineOut := rfl
  xseed := rfl
  hp := rfl
  lp := rfl
  pre := applyDelay_holds c.pre k.pre
  mt := (applyMultitap_holds c.mt k.mt).setX k.xseed
  ed := (applyDiffuser_holds c.ed k.ed).setX k.xseed
  line := applyConfig_line_holds c k

/-- R363: no signal state is touched, whatever the record is. -/
theorem applyConfig_sameSignal (c : Channel) (k : Config.ChannelConfig) : c.SameSignal (applyConfig cfg c k) where
  hp := rfl
  lp := rfl
  pre := applyDelay_sameSignal c.pre k.pre
  widx := ((applyMultitap cfg c.mt k.mt).setX_cursor cfg k.xseed).1.trans (applyMultitap_cursor c.mt k.mt).1
  buf := ((applyMultitap cfg c.mt k.mt).setX_cursor cfg k.xseed).2.trans (applyMultitap_cursor c.mt k.mt).2
  ed := (applyDiffuser_sameSignal c.ed k.ed).trans (setX_sameSignal cfg k.xseed _)
  line j := by
    rw [applyConfig_line]
    exact ⟨rfl, rfl, rfl, rfl, applyDelay_sameSignal _ _, (applyDiffuser_sameSignal _ _).trans (setX_sameSignal cfg k.xseed _),
      ⟨rfl, rfl, rfl, rfl⟩, ⟨rfl, rfl, rfl, rfl⟩, rfl⟩

/-- The cross seed comes after every other setting of a diffuser, so that its values are derived from all of them. -/
theorem applyDiffuser_setX_derived {d : Diffuser} (h : Memory.wf d.seedV = true) (k : Config.DiffuserConfig) (x : F) :
    ((applyDiffuser cfg d k).setX cfg x).Derived cfg :=
  Diffuser.setX_derived cfg x (Diffuser.fresh_apply h k).seedV_wf

/-- Settles O52, unit by unit. -/
theorem applyConfigWritesAll : Obligations.ApplyConfigWritesAll := by
  unfold Obligations.ApplyConfigWritesAll
  refine fun cfg c k hl => ⟨applyConfig_holds c k, (Channel.fresh_apply hl.seedsWf k).coherent,
    applyDiffuser_setX_derived hl.ed.seedV_wf k.ed k.xseed, fun j => ?_, applyConfig_sameSignal c k⟩
  rw [applyConfig_line]
  exact applyDiffuser_setX_derived (hl.line j).df.seedV_wf _ _

end

end Sys2Proof.Machine
end

section
/-! The debug reads of a channel whose signal state is kept (spec/49_engine.md R363): what the pass leaves (R353), and what a
reset leaves (spec/70_reset_and_hazards.md R430, R431), which is the pass on blank channels. -/

namespace Sys2Proof.Machine

/-! ## The registers and memories of the signal state -/

/-- The registers of the signal state: histories, `PHASE`, `CNT`, `WIDX` and the queue cursors. The taps derive from the
settings too and are not among them. -/
def historyReg (c : UnitClass) (n : Nat) : Bool :=
  match c with
  | .hp1 | .lp1 => n == 3
  | .shelf => decide (7 ≤ n) && decide (n ≤ 10)
  | .map | .mdly => n == 5 || n == 6 || n == 11
  | .mtap => n == 5
  | .dline => decide (2 ≤ n) && decide (n ≤ 4)
  | _ => false

section
variable {n : Nat}

theorem mdlyReg_of_sameSignal {u v : ModDelay} (h : u.SameSignal v) (hn : n = 5 ∨ n = 6 ∨ n = 11) :
    mdlyReg v n = mdlyReg u n := by
  obtain rfl | rfl | rfl := hn
  exacts [congrArg some h.phase, congrArg (some ∘ intReg) h.cnt, congrArg (some ∘ intReg) h.widx]

theorem mapReg_of_sameSignal {a b : Allpass} (h : a.core.SameSignal b.core) (hn : n = 5 ∨ n = 6 ∨ n = 11) :
    mapReg b n = mapReg a n := by
  have hcore : mdlyReg b.core n = mdlyReg a.core n := mdlyReg_of_sameSignal h hn
  obtain rfl | rfl | rfl := hn
  all_goals exact hcore

theorem shelfReg_of_sameSignal {u v : Shelf} (h : u.SameSignal v) (k : Config.ShelfKind) (hn : 7 ≤ n ∧ n ≤ 10) :
    shelfReg k v n = shelfReg k u n := by
  obtain ⟨hx1, hx2, hy1, hy2⟩ := h
  match n, hn with
  | 7, _ => exact congrArg some hx1
  | 8, _ => exact congrArg some hx2
  | 9, _ => exact congrArg some hy1
  | 10, _ => exact congrArg some hy2

theorem lineReg_of_sameSignal {l m : DelayLine} (h : l.SameSignal m) (hn : 2 ≤ n ∧ n ≤ 4) : lineReg m n = lineReg l n := by
  match n, hn with
  | 2, _ => exact congrArg (some ∘ intReg) h.qRd
  | 3, _ => exact congrArg (some ∘ intReg) h.qWr
  | 4, _ => exact congrArg (some ∘ intReg) h.qCount

end

section
variable {s t : State} {sd : Side} {r : UnitRef} {n m : Nat}

theorem readReg_of_sameSignal_line {j : Fin 12} (h : (s.line sd j).SameSignal (t.line sd j)) (hr : LineUnit sd j r)
    (hn : historyReg r.cls n = true) : readReg t r n = readReg s r n := by
  cases hr with
  | dline => exact lineReg_of_sameSignal h (by simpa [UnitRef.cls, historyReg] using hn)
  | delay => exact mdlyReg_of_sameSignal h.delay (by simpa [UnitRef.cls, historyReg, or_assoc] using hn)
  | df => cases hn
  | stage k => exact mapReg_of_sameSignal (h.df k) (by simpa [UnitRef.cls, historyReg, or_assoc] using hn)
  | shelf k =>
    have hn' : 7 ≤ n ∧ n ≤ 10 := by simpa [UnitRef.cls, historyReg] using hn
    cases k with
    | low => exact shelfReg_of_sameSignal h.ls _ hn'
    | high => exact shelfReg_of_sameSignal h.hs _ hn'
  | damp =>
    obtain rfl : n = 3 := beq_iff_eq.1 hn
    exact congrArg some h.damp

theorem readMem_of_sameSignal_line {j : Fin 12} (h : (s.line sd j).SameSignal (t.line sd j)) (hr : LineUnit sd j r)
    (hm : r.cls.sampleMem m = true) (i : Nat) : readMem t r m i = readMem s r m i := by
  cases hr with
  | dline => exact congrArg (fun b => shownMem (onlyMem 0 m b _) i) h.q
  | delay => exact congrArg (fun b => shownMem (onlyMem 0 m b _) i) h.delay.buf
  | stage k => exact congrArg (fun b => shownMem (onlyMem 0 m b _) i) (h.df k).buf
  | df | shelf | damp => cases hm

theorem readReg_of_sameSignal (h : (s.chan sd).SameSignal (t.chan sd)) (hr : ChanUnit sd r)
    (hn : historyReg r.cls n = true) : readReg t r n = readReg s r n := by
  cases hr with
  | chan | ed => cases hn
  | hp =>
    obtain rfl : n = 3 := beq_iff_eq.1 hn
    exact congrArg some h.hp
  | lp =>
    obtain rfl : n = 3 := beq_iff_eq.1 hn
    exact congrArg some h.lp
  | pre => exact mdlyReg_of_sameSignal h.pre (by simpa [UnitRef.cls, historyReg, or_assoc] using hn)
  | mt =>
    obtain rfl : n = 5 := beq_iff_eq.1 hn
    exact congrArg (some ∘ intReg) h.widx
  | stage k => exact mapReg_of_sameSignal (h.ed k) (by simpa [UnitRef.cls, historyReg, or_assoc] using hn)
  | line j hr => exact readReg_of_sameSignal_line (h.line j) hr hn

theorem readMem_of_sameSignal (h : (s.chan sd).SameSignal (t.chan sd)) (hr : ChanUnit sd r)
    (hm : r.cls.sampleMem m = true) (i : Nat) : readMem t r m i = readMem s r m i := by
  cases hr with
  | chan | hp | lp | ed => cases hm
  | pre => exact congrArg (fun b => shownMem (onlyMem 0 m b _) i) h.pre.buf
  | mt =>
    obtain rfl : m = 0 := beq_iff_eq.1 hm
    exact congrArg (fun b => shownMem (some (b, Config.dlCap)) i) h.buf
  | stage k => exact congrArg (fun b => shownMem (onlyMem 0 m b _) i) (h.ed k).buf
  | line j hr => exact readMem_of_sameSignal_line (h.line j) hr hm i

end

/-- A channel replaced by one with the same signal state: no sample memory changes. -/
theorem untouched_setChan_sameSignal (s : State) (sd : Side) {c : Channel} (h : (s.chan sd).SameSignal c) :
    Untouched s (s.setChan sd c) (fun q _ => q.inChan sd = true)
      (fun q m _ => q.inChan sd = true ∧ q.cls.sampleMem m = false) := by
  have hc : (s.chan sd).SameSignal ((s.setChan sd c).chan sd) := by rwa [State.chan_setChan_self]
  refine untouched_setChan (fun q n hq hn => absurd (chanUnit_iff.1 hq) hn) fun q m i hq hm => ?_
  have hm' : q.cls.sampleMem m = true := Bool.eq_true_of_not_eq_false fun hf => hm ⟨chanUnit_iff.1 hq, hf⟩
  exact readMem_of_sameSignal hc hq hm' i

/-! ## The pass (R353, R354) -/

theorem exec_enSync {s : State} {u : UnitAddr} (hp : s.port = .A) (hu : unitOf u = some .eng) :
    exec (.enSync u) s = .next s.engSync := onEng_eq hp hu _

theorem State.chan_engSync {s : State} (h : s.eng.dirty = true) (sd : Side) : s.engSync.chan sd = s.synced sd := by
  rw [State.engSync_of_dirty h]
  cases sd <;> rfl

theorem engReg_withDirty (e : Engine) (b : Bool) {n : Nat} (hn : n ≠ 10) : engReg { e with dirty := b } n = engReg e n := by
  unfold engReg
  rw [if_neg hn, if_neg hn]

/-- Both sides get the seeds of the left one (R143). -/
theorem applyConfig_sameSeeds (cfg : Config.Params) (c d : Channel) (p : Vector F 10) (x : F) :
    (applyConfig cfg c (deriveConfig cfg p x .L)).SameSeeds (applyConfig cfg d (deriveConfig cfg p x .R)) where
  mt := by rw [applyConfig_mt_seed, applyConfig_mt_seed, deriveConfig_mt_seed cfg p x .R]
  ed := by rw [applyConfig_ed_seed, applyConfig_ed_seed, deriveConfig_ed_seed cfg p x .R]
  df j := by rw [applyConfig_df_seed, applyConfig_df_seed, deriveConfig_df_seed cfg p x .R]

theorem State.synced_holds (s : State) (sd : Side) :
    (s.synced sd).Holds Config.chip (deriveConfig Config.chip s.eng.np Config.defaultInputMix sd) := applyConfig_holds _ _

theorem State.synced_sameSignal (s : State) (sd : Side) : (s.chan sd).SameSignal (s.synced sd) := applyConfig_sameSignal _ _

theorem State.synced_sameSeeds (s : State) : (s.synced .L).SameSeeds (s.synced .R) := applyConfig_sameSeeds _ _ _ _ _

theorem State.synced_xseed (s : State) (sd : Side) : (s.synced sd).xseed = xseedOf sd s.eng.np[7] :=
  (s.synced_holds sd).xseed

theorem State.synced_inMix (s : State) (sd : Side) : (s.synced sd).inMix = Config.defaultInputMix :=
  (s.synced_holds sd).inMix

theorem State.engSync_eng {s : State} (h : s.eng.dirty = true) : s.engSync.eng = { s.eng with dirty := false } := by
  rw [State.engSync_of_dirty h, State.setChan_eng, State.setChan_eng]
  rfl

theorem untouched_engSync (s : State) :
    Untouched s s.engSync (fun q n => (q = .eng ∧ n = 10) ∨ ∃ sd, q.inChan sd = true)
      (fun q m _ => (∃ sd, q.inChan sd = true) ∧ q.cls.sampleMem m = false) := by
  cases hd : s.eng.dirty with
  | false =>
    rw [State.engSync_of_clean hd]
    exact .refl s _ _
  | true =>
    have heng := untouched_setEng s { s.eng with dirty := false } (P := (· = 10)) fun _ hn => engReg_withDirty _ _ hn
    have hleft := untouched_setChan_sameSignal (s.setEng { s.eng with dirty := false }) .L (c := s.synced .L)
      (s.synced_sameSignal .L)
    have hright := untouched_setChan_sameSignal
      ((s.setEng { s.eng with dirty := false }).setChan .L (s.synced .L)) .R (c := s.synced .R)
      (s.synced_sameSignal .R)
    rw [State.engSync_of_dirty hd]
    refine ((heng.trans hleft).trans hright).mono (fun q n hq => ?_) fun q m i hm => ?_
    · obtain (hq | hq) | hq := hq
      exacts [.inl hq, .inr ⟨.L, hq⟩, .inr ⟨.R, hq⟩]
    · obtain (hm | ⟨hq, hm⟩) | ⟨hq, hm⟩ := hm
      exacts [hm.elim, ⟨⟨.L, hq⟩, hm⟩, ⟨⟨.R, hq⟩, hm⟩]

/-- R362: what the record depends on. -/
theorem deriveConfig_congr (cfg : Config.Params) {p q : Vector F 10} {x : F} {sd sd' : Side}
    (hl : deriveArgs q x .L = deriveArgs p x .L) (hs : deriveArgs q x sd' = deriveArgs p x sd) :
    deriveConfig cfg q x sd' = deriveConfig cfg p x sd := by
  have hx : xseedOf sd' q[7] = xseedOf sd p[7] := congrArg Config.DeriveArgs.xseed hs
  rw [deriveConfig, deriveConfig, hl, hs, hx]

theorem xseedOf_eq_of_halves {c : F} (h : fmul 0x3F000000#32 c = fsub 0x3F800000#32 (fmul 0x3F000000#32 c)) (sd sd' : Side) :
    xseedOf sd c = xseedOf sd' c := by
  cases sd <;> cases sd'
  exacts [rfl, h.symm, h, rfl]

/-- Settles O51: the pass is `ApplyConfig` on both sides, and the record of R362 as the model makes it. -/
theorem engineSync : Obligations.EngineSync := by
  unfold Obligations.EngineSync
  refine ⟨fun s u hp hu => ⟨fun hd => ?_, fun hd => ?_⟩, fun cfg p inputMix sd => ?_⟩
  · rw [exec_enSync hp hu, State.engSync_of_clean hd]
  · have hc := State.chan_engSync hd
    have hl : s.engSync.left = s.synced .L := hc .L
    have hr : s.engSync.right = s.synced .R := hc .R
    refine ⟨s.engSync, exec_enSync hp hu, State.engSync_eng hd, hc, ?_, ?_, ?_, ?_, ?_, fun sd => ?_, untouched_engSync s⟩
    · rw [hr]
      exact s.synced_xseed .R
    · rw [hl]
      exact s.synced_xseed .L
    · rw [hl]
      exact s.synced_inMix .L
    · rw [hr]
      exact s.synced_inMix .R
    · rw [hl, hr]
      exact s.synced_sameSeeds
    · rw [hc]
      exact s.synced_sameSignal sd
  · refine ⟨fun hp hm => deriveConfig_legal cfg sd (hp 7) hm, ?_, rfl, fun m => ?_, fun hhalf sd' => ?_⟩
    · cases sd with
      | L => exact (if_neg (by decide)).symm
      | R => exact (if_pos rfl).symm
    · exact deriveConfig_congr cfg (deriveArgs_set_mix p m inputMix .L) (deriveArgs_set_mix p m inputMix sd)
    · have hx : xseedOf sd' p[7] = xseedOf sd p[7] := xseedOf_eq_of_halves hhalf sd' sd
      refine deriveConfig_congr cfg rfl ?_
      rw [deriveArgs, deriveArgs, hx]

/-! ## The reset (R430, R431) -/

/-- The reset state before the pass. -/
def State.blank : State := { State.reset with left := blankChannel, right := blankChannel }

theorem State.chan_blank (sd : Side) : State.blank.chan sd = blankChannel := by cases sd <;> rfl

theorem State.line_blank (sd : Side) (j : Fin 12) : State.blank.line sd j = blankLine := by
  rw [State.line, State.chan_blank]
  exact getElem_vecOf12 _ j

theorem State.chan_reset (sd : Side) : State.reset.chan sd = resetChannel Config.chip sd := chan_resetWith _ _ _ sd

theorem sameSignal_blank_reset (sd : Side) : (State.blank.chan sd).SameSignal (State.reset.chan sd) := by
  rw [State.chan_blank, State.chan_reset]
  exact applyConfig_sameSignal blankChannel _

theorem State.diff_blank (r : DiffRef) : State.blank.diff r = blankDiffuser := by
  cases r with
  | early sd => exact congrArg Channel.ed (State.chan_blank sd)
  | line sd j => exact congrArg DelayLine.df (State.line_blank sd j)

theorem State.map_blank (r : MapRef) : State.blank.map r = blankAllpass := by
  rw [State.map, State.diff_blank]
  exact getElem_vecOf12 _ r.k

theorem State.mdly_blank (r : MdlyRef) : State.blank.mdly r = blankModDelay := by
  cases r with
  | pre sd => exact congrArg Channel.pre (State.chan_blank sd)
  | line sd j => exact congrArg DelayLine.delay (State.line_blank sd j)

theorem State.lp1_blank (r : Lp1Ref) : State.blank.lp1 r = blankOnePole := by
  cases r with
  | chan sd => exact congrArg Channel.lp (State.chan_blank sd)
  | damp sd j => exact congrArg DelayLine.damp (State.line_blank sd j)

theorem State.shelf_blank (r : ShelfRef) : State.blank.shelf r = blankShelf := by
  obtain ⟨sd, j, k⟩ := r
  cases k with
  | low => exact congrArg DelayLine.ls (State.line_blank sd j)
  | high => exact congrArg DelayLine.hs (State.line_blank sd j)

/-- Every class with a signal state belongs to a side. -/
theorem exists_chanUnit {r : UnitRef} (h : (∃ n, historyReg r.cls n = true) ∨ ∃ m, r.cls.sampleMem m = true) :
    ∃ sd, ChanUnit sd r := by
  cases r with
  | sys | eng | rng | rbuf | fn | io => obtain ⟨n, hn⟩ | ⟨n, hn⟩ := h <;> cases hn
  | chan sd => exact ⟨sd, .chan⟩
  | hp1 sd => exact ⟨sd, .hp⟩
  | lp1 r => cases r with
    | chan sd => exact ⟨sd, .lp⟩
    | damp sd j => exact ⟨sd, .line j .damp⟩
  | shelf r => exact ⟨r.sd, .line r.j (.shelf r.kind)⟩
  | map r =>
    obtain ⟨d, k⟩ := r
    cases d with
    | early sd => exact ⟨sd, .stage k⟩
    | line sd j => exact ⟨sd, .line j (.stage k)⟩
  | diff r => cases r with
    | early sd => exact ⟨sd, .ed⟩
    | line sd j => exact ⟨sd, .line j .df⟩
  | mdly r => cases r with
    | pre sd => exact ⟨sd, .pre⟩
    | line sd j => exact ⟨sd, .line j .delay⟩
  | mtap sd => exact ⟨sd, .mt⟩
  | dline sd j => exact ⟨sd, .line j .dline⟩

/-- Every register of the signal state of a blank channel is 0. -/
theorem readReg_blank {r : UnitRef} {n : Nat} (hn : historyReg r.cls n = true) : readReg State.blank r n = some 0#32 := by
  cases r with
  | sys | eng | rng | rbuf | fn | io | chan | diff => cases hn
  | hp1 sd =>
    obtain rfl : n = 3 := beq_iff_eq.1 hn
    exact congrArg (fun c : Channel => some c.hp.z) (State.chan_blank sd)
  | lp1 r =>
    obtain rfl : n = 3 := beq_iff_eq.1 hn
    exact congrArg (fun u : OnePole => some u.z) (State.lp1_blank r)
  | shelf r =>
    have hn' : 7 ≤ n ∧ n ≤ 10 := by simpa [UnitRef.cls, historyReg] using hn
    refine (congrArg (shelfReg r.kind · n) (State.shelf_blank r)).trans ?_
    match n, hn' with
    | 7, _ | 8, _ | 9, _ | 10, _ => rfl
  | map r =>
    have hn' : n = 5 ∨ n = 6 ∨ n = 11 := by simpa [UnitRef.cls, historyReg, or_assoc] using hn
    refine (congrArg (mapReg · n) (State.map_blank r)).trans ?_
    obtain rfl | rfl | rfl := hn' <;> rfl
  | mdly r =>
    have hn' : n = 5 ∨ n = 6 ∨ n = 11 := by simpa [UnitRef.cls, historyReg, or_assoc] using hn
    refine (congrArg (mdlyReg · n) (State.mdly_blank r)).trans ?_
    obtain rfl | rfl | rfl := hn' <;> rfl
  | mtap sd =>
    obtain rfl : n = 5 := beq_iff_eq.1 hn
    exact congrArg (fun c : Channel => some (intReg c.mt.widx)) (State.chan_blank sd)
  | dline sd j =>
    have hn' : 2 ≤ n ∧ n ≤ 4 := by simpa [UnitRef.cls, historyReg] using hn
    refine (congrArg (lineReg · n) (State.line_blank sd j)).trans ?_
    match n, hn' with
    | 2, _ | 3, _ | 4, _ => rfl

theorem readReg_reset {r : UnitRef} {n : Nat} (hn : historyReg r.cls n = true) : readReg State.reset r n = some 0#32 := by
  obtain ⟨sd, hr⟩ := exists_chanUnit (.inl ⟨n, hn⟩)
  rw [readReg_of_sameSignal (sameSignal_blank_reset sd) hr hn, readReg_blank hn]

/-- Every sample memory of a blank channel is empty. -/
theorem unitMem_blank {r : UnitRef} {m : Nat} (hm : r.cls.sampleMem m = true) :
    ∃ size, unitMem State.blank r m = some ([], size) := by
  cases r with
  | map r =>
    obtain rfl : m = 0 := beq_iff_eq.1 hm
    exact ⟨_, congrArg (fun a : Allpass => onlyMem 0 0 a.core.buf Config.apCap) (State.map_blank r)⟩
  | mdly r =>
    obtain rfl : m = 0 := beq_iff_eq.1 hm
    exact ⟨_, congrArg (fun u : ModDelay => onlyMem 0 0 u.buf Config.dlCap) (State.mdly_blank r)⟩
  | mtap sd =>
    obtain rfl : m = 0 := beq_iff_eq.1 hm
    exact ⟨_, congrArg (fun c : Channel => mtapMem c.mt 0) (State.chan_blank sd)⟩
  | dline sd j =>
    obtain rfl : m = 0 := beq_iff_eq.1 hm
    exact ⟨_, congrArg (fun l : DelayLine => onlyMem 0 0 l.q Config.fbqCap) (State.line_blank sd j)⟩
  | _ => cases hm

theorem readMem_reset {r : UnitRef} {m i : Nat} (hm : r.cls.sampleMem m = true) (hi : i < r.cls.memWords m) :
    readMem State.reset r m i = some 0#32 := by
  obtain ⟨sd, hr⟩ := exists_chanUnit (.inr ⟨m, hm⟩)
  obtain ⟨size, hmem⟩ := unitMem_blank hm
  have hsome := isSome_readMem State.blank r m i
  rw [decide_eq_true hi, readMem_eq, hmem, shownMem] at hsome
  rw [readMem_of_sameSignal (sameSignal_blank_reset sd) hr hm, readMem_eq, hmem, shownMem]
  split at hsome
  · next hlt => exact if_pos hlt
  · cases hsome

theorem historyReg_of_clearedReg {c : UnitClass} {n : Nat} (h : c.clearedReg n = true) : historyReg c n = true := by
  cases c with
  | hp1 | lp1 | shelf | dline => exact h
  | _ => cases h

theorem resetIo_empty (b : Fin 4) : resetIo[b] = [] := by
  revert b
  decide

/-- Settles O15: the engine's own registers by evaluation, those of the channels from the record and the blank channels. -/
theorem resetValues : Obligations.ResetValues := by
  unfold Obligations.ResetValues
  have hchan (sd : Side) (n : Nat) : readReg State.reset (.chan sd) n = chanReg (resetChannel Config.chip sd) n :=
    congrArg (chanReg · n) (State.chan_reset sd)
  have hxseed (sd : Side) : readReg State.reset (.chan sd) 7 = some (xseedOf sd Config.defaultParams[7]) := by
    rw [hchan]
    exact congrArg some (applyConfig_holds blankChannel _).xseed
  refine ⟨fun n hn => ?_, fun k => ?_, fun sd => ?_, (hxseed .L).trans (by decide),
    (hxseed .R).trans (by decide), applyConfig_sameSeeds _ _ _ _ _, by decide, fun n hn => ?_, fun n hn => ?_,
    fun i hi => if_pos hi, fun b i hi => ?_, fun r m i => readMem_reset,
    fun r n hn => readReg_reset (historyReg_of_clearedReg hn),
    fun r => ⟨readReg_reset rfl, readReg_reset rfl, readReg_reset rfl⟩,
    fun r => ⟨readReg_reset rfl, readReg_reset rfl, readReg_reset rfl⟩, fun sd => readReg_reset rfl⟩
  · match n, hn with
    | 0, _ | 1, _ | 2, _ | 3, _ | 4, _ | 5, _ => rfl
  · revert k
    decide
  · rw [hchan]
    exact congrArg some (applyConfig_holds blankChannel _).inMix
  · match n, hn with
    | 0, _ | 1, _ => rfl
  · match n, hn with
    | 0, _ | 1, _ | 2, _ => rfl
  · rw [readMem_io _ _ hi]
    exact congrArg (fun m => some (memRead m i)) (resetIo_empty b)

end Sys2Proof.Machine
end

section
/-! The block operation of the engine (spec/49_engine.md R355 to R357): the pass, both channels over their banks, and the mix.
Each side reads its own bank and channel and writes its own bank and channel. -/

namespace Sys2Proof.Machine

/-- The input bank of a side (R355). -/
def inBank : Side → Fin 4
  | .L => 0
  | .R => 1

/-- The output bank of a side (R355). -/
def outBank : Side → Fin 4
  | .L => 2
  | .R => 3

/-- The output of a side: the mix of its input and of its channel's output (R357). -/
def State.mixed (s : State) (sd : Side) (n : Nat) : List F :=
  List.zipWith (mixLaw (s.eng.param 4)) (s.block (inBank sd) n)
    (chanProc Config.chip (s.chan sd) (s.block (inBank sd) n)).1

section
variable (s : State) (n : Nat)

theorem State.mixed_length (sd : Side) : (s.mixed sd n).length = n := by
  rw [State.mixed, List.length_zipWith, chanProc_length, State.block_length, Nat.min_self]

/-- Both channels after their blocks, before the banks are written. -/
def State.procChannels : State :=
  (s.setChan .L (chanProc Config.chip (s.chan .L) (s.block (inBank .L) n)).2).setChan .R
    (chanProc Config.chip (s.chan .R) (s.block (inBank .R) n)).2

theorem State.procFrames_eq_putBlock :
    s.procFrames n = ((s.procChannels n).putBlock 2 (s.mixed .L n)).putBlock 3 (s.mixed .R n) := rfl

theorem State.chan_procFrames (sd : Side) :
    (s.procFrames n).chan sd = (chanProc Config.chip (s.chan sd) (s.block (inBank sd) n)).2 := by
  rw [State.procFrames_eq_putBlock, State.chan_putBlock, State.chan_putBlock, State.procChannels, State.chan_setChan]
  cases sd with
  | L => rw [if_neg (by decide), State.chan_setChan_self]
  | R => rw [if_pos rfl]

theorem State.io_procFrames (sd : Side) :
    (s.procFrames n).io[outBank sd] = memWriteList s.io[outBank sd] 0 (s.mixed sd n) := by
  have hio : (s.procChannels n).io = s.io := by rw [State.procChannels, State.setChan_io, State.setChan_io]
  rw [State.procFrames_eq_putBlock]
  cases sd with
  | L => exact (State.putBlock_ne _ (by decide) _).trans ((State.putBlock_self _ _ _).trans (by rw [hio]; rfl))
  | R =>
    refine (State.putBlock_self _ _ _).trans (congrArg (memWriteList · 0 _) ?_)
    exact (State.putBlock_ne _ (by decide) _).trans (by rw [hio]; rfl)

theorem State.eng_procFrames : (s.procFrames n).eng = s.eng := rfl

theorem untouched_procFrames : Untouched s (s.procFrames n)
    (signalRegs fun q => ∃ sd, q.inChan sd = true)
    (fun q m i => ((∃ sd, q.inChan sd = true) ∧ q.cls.sampleMem m = true) ∨
      ((q = .io 2 ∨ q = .io 3) ∧ m = 0 ∧ i < n)) := by
  have hleft := untouched_setChan_sameSettings s .L
    (chanProc_sameSettings (cfg := Config.chip) (s.chan .L) (s.block (inBank .L) n))
  have hright := untouched_setChan_sameSettings
    (s.setChan .L (chanProc Config.chip (s.chan .L) (s.block (inBank .L) n)).2) .R
    (chanProc_sameSettings (cfg := Config.chip) (s.chan .R) (s.block (inBank .R) n))
  have hput2 := untouched_putBlock (s.procChannels n) 2 (s.mixed .L n)
  have hput3 := untouched_putBlock ((s.procChannels n).putBlock 2 (s.mixed .L n)) 3 (s.mixed .R n)
  rw [State.mixed_length] at hput2 hput3
  rw [State.procFrames_eq_putBlock]
  refine (((hleft.trans hright).trans hput2).trans hput3).mono (fun q k hq => ?_) fun q m i hm => ?_
  · obtain (((⟨hq, hk⟩ | ⟨hq, hk⟩) | hq) | hq) := hq
    exacts [⟨⟨.L, hq⟩, hk⟩, ⟨⟨.R, hq⟩, hk⟩, hq.elim, hq.elim]
  · obtain (((⟨hq, hm⟩ | ⟨hq, hm⟩) | ⟨hq, hm⟩) | ⟨hq, hm⟩) := hm
    exacts [.inl ⟨⟨.L, hq⟩, hm⟩, .inl ⟨⟨.R, hq⟩, hm⟩, .inr ⟨.inl hq, hm⟩, .inr ⟨.inr hq, hm⟩]

theorem State.io_engSync : s.engSync.io = s.io := by
  cases hd : s.eng.dirty with
  | false => rw [State.engSync_of_clean hd]
  | true => rw [State.engSync_of_dirty hd, State.setChan_io, State.setChan_io]; rfl

theorem State.np_engSync : s.engSync.eng.np = s.eng.np := by
  cases hd : s.eng.dirty with
  | false => rw [State.engSync_of_clean hd]
  | true => rw [State.engSync_eng hd]

theorem State.block_engSync (b : Fin 4) : s.engSync.block b n = s.block b n := by
  rw [State.block, State.io_engSync, State.block]

/-- The mix weight is the parameter that a pass leaves alone (R357). -/
theorem State.mixed_engSync (sd : Side) : s.engSync.mixed sd n =
    List.zipWith (fun dry wet => fadd (fmul (fsub fone s.eng.np[(4 : Fin 10)]) dry) (fmul s.eng.np[(4 : Fin 10)] wet))
      (s.block (inBank sd) n) (chanProc Config.chip (s.engSync.chan sd) (s.block (inBank sd) n)).1 := by
  have hmix : s.engSync.eng.param 4 = s.eng.np[(4 : Fin 10)] := by
    rw [← Engine.param_eq, Engine.param, Engine.param, State.np_engSync]
    rfl
  rw [State.mixed, hmix, State.block_engSync]
  rfl

end

/-- A bank that was written reads back. -/
theorem memReadList_io_procFrames {s : State} {sd : Side} (h : Memory.wf s.io[outBank sd] = true) (n : Nat) :
    memReadList (s.procFrames n).io[outBank sd] 0 n = s.mixed sd n := by
  have hread := memReadList_memWriteList h 0 (s.mixed sd n)
  rw [State.mixed_length] at hread
  rw [State.io_procFrames, hread]

section
variable {s : State} {u : UnitAddr}

theorem exec_enProc (hp : s.port = .A) (hu : unitOf u = some .eng) (v : Word) :
    exec (.enProc u v) s = check (blockOk v.toNat) .cfgErr s (.next (s.engSync.procFrames v.toNat)) := onEng_eq hp hu _

end

/-- Settles O53: the frame is that of the two channels and of the two banks. -/
theorem engineProc : Obligations.EngineProc := by
  unfold Obligations.EngineProc
  intro s u v hp hu n
  refine ⟨fun hn hwf2 hwf3 => ?_, fun hn => ?_⟩
  · have hexec : exec (.enProc u v) s = .next (s.engSync.procFrames n) := by
      rw [exec_enProc hp hu, blockOk_iff.2 hn, check_true]
    have hwf (sd : Side) : Memory.wf s.engSync.io[outBank sd] = true := by
      rw [State.io_engSync]
      cases sd
      exacts [hwf2, hwf3]
    have hchan (sd : Side) := (s.engSync.chan_procFrames n sd).trans (by rw [State.block_engSync])
    have hio (sd : Side) := (memReadList_io_procFrames (hwf sd) n).trans (s.mixed_engSync n sd)
    exact ⟨s.engSync, s.engSync.procFrames n, exec_enSync hp hu, hexec, s.engSync.eng_procFrames n, hchan .L, hchan .R,
      hio .L, hio .R, untouched_procFrames s.engSync n⟩
  · rw [exec_enProc hp hu, Bool.eq_false_iff.2 (mt blockOk_iff.1 hn), check_false]

/-! ## The two sides (R356) -/

/-- `EN.PROC` runs, or is answered by a fault. -/
theorem exec_enProc_cases {s t : State} {u : UnitAddr} {v : Word} (h : exec (.enProc u v) s = .next t) :
    ((s.port = .A ∧ unitOf u = some .eng ∧ blockOk v.toNat = true) ∧ t = s.engSync.procFrames v.toNat) ∨
      (¬ (s.port = .A ∧ unitOf u = some .eng ∧ blockOk v.toNat = true) ∧ ∃ c, t = s.raise c) := by
  by_cases hrun : s.port = .A ∧ unitOf u = some .eng ∧ blockOk v.toNat = true
  · obtain ⟨hp, hu, hn⟩ := hrun
    rw [exec_enProc hp hu, hn, check_true] at h
    exact .inl ⟨⟨hp, hu, hn⟩, (Host.Outcome.next.inj h).symm⟩
  · refine .inr ⟨hrun, ?_⟩
    obtain ⟨hp, hu, h⟩ | rfl | rfl := onEng_cases (k := check (blockOk v.toNat) .cfgErr s _) h
    · obtain ⟨hn, -⟩ | ⟨-, rfl⟩ := check_cases h
      · exact absurd ⟨hp, hu, hn⟩ hrun
      · exact ⟨_, rfl⟩
    · exact ⟨_, rfl⟩
    · exact ⟨_, rfl⟩

section
variable {s s' : State} {sd : Side}

/-- The pass on a side depends on the parameters and on its channel. -/
theorem State.chan_engSync_congr (he : s.eng = s'.eng) (hc : s.chan sd = s'.chan sd) :
    s.engSync.chan sd = s'.engSync.chan sd := by
  cases hd : s'.eng.dirty with
  | false => rw [State.engSync_of_clean hd, State.engSync_of_clean (he ▸ hd), hc]
  | true => rw [State.chan_engSync hd, State.chan_engSync (he ▸ hd), State.synced, State.synced, hc, he]

theorem State.eng_engSync_congr (he : s.eng = s'.eng) : s.engSync.eng = s'.engSync.eng := by
  cases hd : s'.eng.dirty with
  | false => rw [State.engSync_of_clean hd, State.engSync_of_clean (he ▸ hd), he]
  | true => rw [State.engSync_eng hd, State.engSync_eng (he ▸ hd), he]

theorem State.block_congr {b : Fin 4} (h : s.io[b] = s'.io[b]) (n : Nat) : s.block b n = s'.block b n := by
  rw [State.block, State.block, h]

/-- One side of the block operation, from that side of the machine. -/
theorem State.procFrames_congr (he : s.eng = s'.eng) (hc : s.chan sd = s'.chan sd)
    (hin : s.io[inBank sd] = s'.io[inBank sd]) (hout : s.io[outBank sd] = s'.io[outBank sd]) (n : Nat) :
    (s.procFrames n).chan sd = (s'.procFrames n).chan sd ∧
      (s.procFrames n).io[outBank sd] = (s'.procFrames n).io[outBank sd] := by
  have hb : s.block (inBank sd) n = s'.block (inBank sd) n := State.block_congr hin n
  refine ⟨?_, ?_⟩
  · rw [State.chan_procFrames, State.chan_procFrames, hc, hb]
  · rw [State.io_procFrames, State.io_procFrames, State.mixed, State.mixed, he, hc, hb, hout]

/-- One side of `EN.PROC`, from that side of the machine, faults included. -/
theorem enProc_side {t t' : State} {u : UnitAddr} {v : Word} (hport : s.port = s'.port) (he : s.eng = s'.eng)
    (h : exec (.enProc u v) s = .next t) (h' : exec (.enProc u v) s' = .next t') (hc : s.chan sd = s'.chan sd)
    (hin : s.io[inBank sd] = s'.io[inBank sd]) (hout : s.io[outBank sd] = s'.io[outBank sd]) :
    t.chan sd = t'.chan sd ∧ t.io[outBank sd] = t'.io[outBank sd] := by
  obtain ⟨hrun, rfl⟩ | ⟨hrun, c, rfl⟩ := exec_enProc_cases h <;>
    obtain ⟨hrun', rfl⟩ | ⟨hrun', c', rfl⟩ := exec_enProc_cases h'
  · refine State.procFrames_congr (State.eng_engSync_congr he) (State.chan_engSync_congr he hc) ?_ ?_ _
    · rw [State.io_engSync, State.io_engSync, hin]
    · rw [State.io_engSync, State.io_engSync, hout]
  · exact absurd (hport ▸ hrun) hrun'
  · exact absurd (hport ▸ hrun') hrun
  · exact ⟨by rw [State.chan_raise, State.chan_raise, hc], hout⟩

theorem enProc_eng {t t' : State} {u : UnitAddr} {v : Word} (hport : s.port = s'.port) (he : s.eng = s'.eng)
    (h : exec (.enProc u v) s = .next t) (h' : exec (.enProc u v) s' = .next t') : t.eng = t'.eng := by
  obtain ⟨hrun, rfl⟩ | ⟨hrun, c, rfl⟩ := exec_enProc_cases h <;>
    obtain ⟨hrun', rfl⟩ | ⟨hrun', c', rfl⟩ := exec_enProc_cases h'
  · rw [State.eng_procFrames, State.eng_procFrames, State.eng_engSync_congr he]
  · exact absurd (hport ▸ hrun) hrun'
  · exact absurd (hport ▸ hrun') hrun
  · exact he

end

/-- Settles O54, one lemma for either side. -/
theorem sideIsolation : Obligations.SideIsolation := by
  unfold Obligations.SideIsolation
  exact fun s s' t t' u v hport he h h' => ⟨enProc_side (sd := .L) hport he h h', enProc_side (sd := .R) hport he h h',
    enProc_eng hport he h h'⟩

end Sys2Proof.Machine
end

section
/-! The block operation of a channel (spec/48_channel.md R311 to R314, R327): the input and early stages sample by sample, the
lines over the whole block, the mix. -/

namespace Sys2Proof.Machine

/-! ## The early path, sample by sample (R311 to R313) -/

section
variable {cfg : Config.Params} (d : Channel)

/-- What the high-pass makes of `a`, and the filter after. -/
def Channel.highPassed (cfg : Config.Params) (d : Channel) (a : F) : F × OnePole :=
  if flagHpEn d.flags then hp1Step cfg d.hp a else (a, d.hp)

/-- What the low-pass makes of `a`, and the filter after. -/
def Channel.lowPassed (cfg : Config.Params) (d : Channel) (a : F) : F × OnePole :=
  if flagLpEn d.flags then lp1Step cfg d.lp a else (a, d.lp)

/-- What the multitap makes of `e`, and the multitap after. -/
def Channel.multitapped (cfg : Config.Params) (d : Channel) (e : F) : F × Multitap :=
  if flagMtEn d.flags then mtapStep cfg d.mt e else (e, d.mt)

/-- What the early diffuser makes of `e`, and the diffuser after. -/
def Channel.earlyDiffused (cfg : Config.Params) (d : Channel) (e : F) : F × Diffuser :=
  if flagEdEn d.flags then diffStep cfg d.ed e else (e, d.ed)

theorem Channel.viaHighPass_eq (a : F) :
    d.viaHighPass cfg a = ((d.highPassed cfg a).1, { d with hp := (d.highPassed cfg a).2 }) := by
  unfold Channel.viaHighPass Channel.highPassed
  split <;> rfl

theorem Channel.viaLowPass_eq (a : F) :
    d.viaLowPass cfg a = ((d.lowPassed cfg a).1, { d with lp := (d.lowPassed cfg a).2 }) := by
  unfold Channel.viaLowPass Channel.lowPassed
  split <;> rfl

theorem Channel.viaMultitap_eq (e : F) :
    d.viaMultitap cfg e = ((d.multitapped cfg e).1, { d with mt := (d.multitapped cfg e).2 }) := by
  unfold Channel.viaMultitap Channel.multitapped
  split <;> rfl

theorem Channel.viaEarlyDiffuser_eq (e : F) :
    d.viaEarlyDiffuser cfg e = ((d.earlyDiffused cfg e).1, { d with ed := (d.earlyDiffused cfg e).2 }) := by
  unfold Channel.viaEarlyDiffuser Channel.earlyDiffused
  split <;> rfl

/-- R311: the filtered sample before the flush. -/
def Channel.inputFiltered (cfg : Config.Params) (d : Channel) (y : F) : F :=
  (d.lowPassed cfg (d.highPassed cfg (fmul y d.inMix)).1).1

theorem chanInput_eq (y : F) : chanInput cfg d y = (flush (d.inputFiltered cfg y),
    { d with
      hp := (d.highPassed cfg (fmul y d.inMix)).2
      lp := (d.lowPassed cfg (d.highPassed cfg (fmul y d.inMix)).1).2 }) := by
  rw [chanInput, Channel.viaHighPass_eq]
  simp only []
  rw [Channel.viaLowPass_eq]
  rfl

theorem chanEarly_eq (a : F) : chanEarly cfg d a =
    ((d.earlyDiffused cfg (d.multitapped cfg (mdlyStep cfg d.pre a).1).1).1,
      { d with
        pre := (mdlyStep cfg d.pre a).2
        mt := (d.multitapped cfg (mdlyStep cfg d.pre a).1).2
        ed := (d.earlyDiffused cfg (d.multitapped cfg (mdlyStep cfg d.pre a).1).1).2 }) := by
  rw [chanEarly, Channel.viaPreDelay]
  simp only []
  rw [Channel.viaMultitap_eq]
  simp only []
  rw [Channel.viaEarlyDiffuser_eq]
  rfl

/-- The channel after the early path of one sample. -/
def Channel.earlyStepped (cfg : Config.Params) (d : Channel) (y : F) : Channel :=
  { d with
    hp := (d.highPassed cfg (fmul y d.inMix)).2
    lp := (d.lowPassed cfg (d.highPassed cfg (fmul y d.inMix)).1).2
    pre := (mdlyStep cfg d.pre (flush (d.inputFiltered cfg y))).2
    mt := (d.multitapped cfg (mdlyStep cfg d.pre (flush (d.inputFiltered cfg y))).1).2
    ed := (d.earlyDiffused cfg (d.multitapped cfg (mdlyStep cfg d.pre (flush (d.inputFiltered cfg y))).1).1).2 }

theorem chanEarlyBlock_cons (y : F) (ys : List F) : chanEarlyBlock cfg d (y :: ys) =
    ((d.earlyDiffused cfg (d.multitapped cfg (mdlyStep cfg d.pre (flush (d.inputFiltered cfg y))).1).1).1 ::
      (chanEarlyBlock cfg (d.earlyStepped cfg y) ys).1, (chanEarlyBlock cfg (d.earlyStepped cfg y) ys).2) := by
  rw [chanEarlyBlock, chanInput_eq]
  simp only []
  rw [chanEarly_eq]
  rfl

end

/-- From `c` to `d` only the units of the early path may change, and of these only those whose flag is set. -/
structure Channel.EarlyOnly (c d : Channel) : Prop where
  frame : d = { c with hp := d.hp, lp := d.lp, pre := d.pre, mt := d.mt, ed := d.ed }
  hp : flagHpEn c.flags = false → d.hp = c.hp
  lp : flagLpEn c.flags = false → d.lp = c.lp
  mt : flagMtEn c.flags = false → d.mt = c.mt
  ed : flagEdEn c.flags = false → d.ed = c.ed

section
variable {cfg : Config.Params} {c d e : Channel}

theorem Channel.EarlyOnly.flags (h : c.EarlyOnly d) : d.flags = c.flags := by rw [h.frame]

theorem Channel.EarlyOnly.lines (h : c.EarlyOnly d) : d.lines = c.lines := by rw [h.frame]

theorem Channel.EarlyOnly.line (h : c.EarlyOnly d) : d.line = c.line := by rw [h.frame]

theorem Channel.EarlyOnly.trans (h : c.EarlyOnly d) (h' : d.EarlyOnly e) : c.EarlyOnly e where
  frame := by
    have he := h'.frame
    rwa [h.frame] at he
  hp hf := (h'.hp (h.flags ▸ hf)).trans (h.hp hf)
  lp hf := (h'.lp (h.flags ▸ hf)).trans (h.lp hf)
  mt hf := (h'.mt (h.flags ▸ hf)).trans (h.mt hf)
  ed hf := (h'.ed (h.flags ▸ hf)).trans (h.ed hf)

theorem Channel.earlyOnly_earlyStepped (c : Channel) (y : F) : c.EarlyOnly (c.earlyStepped cfg y) where
  frame := rfl
  hp hf := congrArg Prod.snd (if_neg (Bool.eq_false_iff.1 hf))
  lp hf := congrArg Prod.snd (if_neg (Bool.eq_false_iff.1 hf))
  mt hf := congrArg Prod.snd (if_neg (Bool.eq_false_iff.1 hf))
  ed hf := congrArg Prod.snd (if_neg (Bool.eq_false_iff.1 hf))

theorem chanEarlyBlock_earlyOnly (c : Channel) (xs : List F) : c.EarlyOnly (chanEarlyBlock cfg c xs).2 := by
  induction xs generalizing c with
  | nil => exact ⟨rfl, fun _ => rfl, fun _ => rfl, fun _ => rfl, fun _ => rfl⟩
  | cons y ys ih =>
    rw [chanEarlyBlock_cons]
    exact (c.earlyOnly_earlyStepped y).trans (ih _)

end

/-! ## The lines over the block (R314) -/

section
variable {cfg : Config.Params} (lines : Nat) (e : List F)

/-- A line of the list that is below `LINES` takes its block; every other line stays. -/
theorem foldl_chanLine_line {js : List (Fin 12)} (hjs : js.Nodup) (acc : List F × Vector DelayLine 12) (k : Fin 12) :
    (js.foldl (chanLine cfg lines e) acc).2[k] =
      if k ∈ js ∧ k.val < lines then (dlineProc cfg acc.2[k] e).2 else acc.2[k] := by
  induction js generalizing acc with
  | nil => simp
  | cons j js ih =>
    obtain ⟨hj, hjs⟩ := List.nodup_cons.1 hjs
    rw [List.foldl_cons, ih hjs, chanLine]
    by_cases hlt : j.val < lines
    · rw [if_pos hlt]
      simp only [vec_set_get, List.mem_cons]
      by_cases hk : k = j
      · subst hk
        rw [if_pos rfl, if_neg fun h => hj h.1, if_pos ⟨.inl rfl, hlt⟩]
      · rw [if_neg hk]
        simp only [hk, false_or]
    · rw [if_neg hlt]
      by_cases hk : k = j
      · subst hk
        rw [if_neg fun h => hj h.1, if_neg fun h => hlt h.2]
      · simp only [List.mem_cons, hk, false_or]

/-- The running sum at one sample: the lines of the list below `LINES`, in their order. -/
theorem foldl_chanLine_sum {js : List (Fin 12)} (hjs : js.Nodup) (acc : List F × Vector DelayLine 12) {i : Nat}
    (hi : i < e.length) {a : F} (ha : acc.1[i]? = some a) :
    (js.foldl (chanLine cfg lines e) acc).1[i]? = some ((js.filter fun j => decide (j.val < lines)).foldl
      (fun b j => fadd b ((dlineProc cfg acc.2[j] e).1[i]?.getD fzero)) a) := by
  induction js generalizing acc a with
  | nil => exact ha
  | cons j js ih =>
    obtain ⟨hj, hjs⟩ := List.nodup_cons.1 hjs
    rw [List.foldl_cons, chanLine]
    by_cases hlt : j.val < lines
    · rw [if_pos hlt, List.filter_cons_of_pos (by simpa using hlt), List.foldl_cons]
      have hlo : (dlineProc cfg acc.2[j] e).1[i]? = some ((dlineProc cfg acc.2[j] e).1[i]?.getD fzero) := by
        rw [List.getElem?_eq_getElem (by rw [dlineProc_length]; exact hi), Option.getD_some]
      refine (ih hjs (List.zipWith fadd acc.1 (dlineProc cfg acc.2[j] e).1, acc.2.set j (dlineProc cfg acc.2[j] e).2)
        (a := fadd a ((dlineProc cfg acc.2[j] e).1[i]?.getD fzero)) ?_).trans ?_
      · rw [List.getElem?_zipWith, ha, hlo]
        rfl
      · refine congrArg some (List.foldl_ext _ _ _ fun b k hk => ?_)
        have hne : k ≠ j := fun h => hj (h ▸ (List.mem_filter.1 hk).1)
        simp only [vec_set_get, if_neg hne]
    · rw [if_neg hlt, List.filter_cons_of_neg (by simpa using hlt)]
      exact ih hjs acc ha

theorem idx12_eq : idx12 = List.finRange 12 := by decide

theorem chanLines_line (c : Channel) (k : Fin 12) :
    (chanLines cfg c e).2.line[k] = if k.val < c.lines then (dlineProc cfg c.line[k] e).2 else c.line[k] := by
  refine (foldl_chanLine_line c.lines e (by decide) _ k).trans ?_
  simp only [idx12_eq, List.mem_finRange, true_and]

theorem chanLines_sum (c : Channel) {i : Nat} (hi : i < e.length) :
    (chanLines cfg c e).1[i]? = some (((List.finRange 12).filter fun j => decide (j.val < c.lines)).foldl
      (fun b j => fadd b ((dlineProc cfg c.line[j] e).1[i]?.getD fzero)) fzero) := by
  rw [← idx12_eq]
  exact foldl_chanLine_sum c.lines e (by decide) _ hi (by rw [List.getElem?_map, List.getElem?_eq_getElem hi]; rfl)

end

/-! ## `CH.PROC` (R327) -/

section
variable {cfg : Config.Params} (c : Channel) (x : List F)

theorem chanProc_line (k : Fin 12) : (chanProc cfg c x).2.line[k] =
    if k.val < c.lines then (dlineProc cfg c.line[k] (chanEarlyBlock cfg c x).1).2 else c.line[k] := by
  have h := chanEarlyBlock_earlyOnly (cfg := cfg) c x
  rw [chanProc_snd, chanLines_line, h.lines, h.line]

theorem chanProc_frame : (chanProc cfg c x).2 = { (chanEarlyBlock cfg c x).2 with line := (chanProc cfg c x).2.line } := rfl

/-- One sample of the output: the weighted sum of R314. -/
theorem chanProc_sample {i : Nat} (hi : i < x.length) : ∃ xi ei, x[i]? = some xi ∧
    (chanEarlyBlock cfg c x).1[i]? = some ei ∧
    (chanProc cfg c x).1[i]? = some (chanMix c xi ei (((List.finRange 12).filter fun j => decide (j.val < c.lines)).foldl
      (fun b j => fadd b ((dlineProc cfg c.line[j] (chanEarlyBlock cfg c x).1).1[i]?.getD fzero)) fzero)) := by
  have h := chanEarlyBlock_earlyOnly (cfg := cfg) c x
  have hie : i < (chanEarlyBlock cfg c x).1.length := by rwa [chanEarlyBlock_length]
  have hxi := List.getElem?_eq_getElem hi
  have hei := List.getElem?_eq_getElem hie
  refine ⟨x[i], (chanEarlyBlock cfg c x).1[i], hxi, hei, ?_⟩
  have hzip : (x.zip (chanEarlyBlock cfg c x).1)[i]? = some (x[i], (chanEarlyBlock cfg c x).1[i]) :=
    List.getElem?_zip_eq_some.2 ⟨hxi, hei⟩
  rw [chanProc_fst, List.getElem?_zipWith, chanLines_sum _ _ hie, h.lines, h.line, hzip]

end

/-- Settles O46: the early path by its samples, the lines by the fold of R314. -/
theorem channelProc : Obligations.ChannelProc := by
  unfold Obligations.ChannelProc
  intro s u v sd hp hu c n x e
  refine ⟨fun hn hwf => ?_, fun hn => ?_, fun d => ⟨rfl, fun y ys => ?_⟩⟩
  · have hlen : x.length = n := s.block_length 0 n
    have hout : (chanProc Config.chip c x).1.length = n := (chanProc_length c x).trans hlen
    have hchan : (s.procChan sd n).chan sd = (chanProc Config.chip c x).2 := by
      rw [State.procChan, State.chan_putBlock, State.chan_setChan_self]
      rfl
    have hearly := chanEarlyBlock_earlyOnly (cfg := Config.chip) c x
    have hmem : memReadList (s.procChan sd n).io[(2 : Fin 4)] 0 n = (chanProc Config.chip c x).1 :=
      memReadList_block 2 (s.setChan_io sd _) hwf hout
    refine ⟨s.procChan sd n, by rw [exec_chProc hp hu, blockOk_iff.2 hn, check_true], hmem, hchan, fun i hi => ?_,
      fun j => ?_, ?_, fun hf => ?_, fun hf => ?_, fun hf => ?_, fun hf => ?_, ?_⟩
    · obtain ⟨xi, ei, hxi, hei, hsample⟩ := chanProc_sample (cfg := Config.chip) c x (i := i) (by omega)
      refine ⟨xi, ei, hxi, hei, ?_⟩
      have hread : memRead (s.procChan sd n).io[(2 : Fin 4)] i =
          (memReadList (s.procChan sd n).io[(2 : Fin 4)] 0 n)[i]'(by rwa [memReadList_length]) := by
        rw [memReadList_getElem, Nat.zero_add]
      rw [readMem_io _ _ (by omega), hread, ← List.getElem?_eq_getElem, hmem, hsample]
      rfl
    · exact (congrArg (fun d : Channel => d.line[j]) hchan).trans (chanProc_line c x j)
    · rw [hchan]
      exact chanProc_frame c x
    · exact (congrArg Channel.hp hchan).trans (hearly.hp hf)
    · exact (congrArg Channel.lp hchan).trans (hearly.lp hf)
    · exact (congrArg Channel.mt hchan).trans (hearly.mt hf)
    · exact (congrArg Channel.ed hchan).trans (hearly.ed hf)
    · have hframe := (untouched_setChan_sameSettings s sd (chanProc_sameSettings (cfg := Config.chip) c x)).trans
        (untouched_putBlock _ 2 (chanProc Config.chip c x).1)
      rw [hout] at hframe
      exact hframe.mono (fun q m hq => hq.elim id False.elim) fun q m i hm => hm
  · rw [exec_chProc hp hu, Bool.eq_false_iff.2 (mt blockOk_iff.1 hn), check_false]
  · exact chanEarlyBlock_cons d y ys

end Sys2Proof.Machine
end

section
/-! The clears of a line, a channel and the engine (spec/47_delayline.md R298, spec/48_channel.md R328, spec/49_engine.md R359,
spec/70_reset_and_hazards.md R433): what a clear of one unit makes of its registers and memories, and all units at once. -/

namespace Sys2Proof.Machine

/-- From `s` to `t` a unit is cleared: its sample memories and its history registers read 0, the rest reads as before. -/
structure ClearsUnit (s t : State) (q : UnitRef) : Prop where
  zeroMem : ∀ m a, q.cls.sampleMem m = true → a < q.cls.memWords m → readMem t q m a = some 0#32
  keptMem : ∀ m i, q.cls.sampleMem m = false → readMem t q m i = readMem s q m i
  zeroReg : ∀ n, q.cls.clearedReg n = true → readReg t q n = some 0#32
  keptReg : ∀ n, q.cls.clearedReg n = false → readReg t q n = readReg s q n

theorem shownMem_memClear {b : Mem} (h : Memory.wf b = true) {cap a : Nat} (ha : a < cap) :
    shownMem (some (memClear cap b, cap)) a = some 0#32 := by
  rw [shownMem, if_pos ha, memRead_memClear h, if_pos ha]
  rfl

section
variable {s t : State} {q : UnitRef}

/-- A unit whose only sample memory is its memory 0, a cleared buffer. -/
theorem ClearsUnit.of_buffer {b : Mem} {cap : Nat} (hwf : Memory.wf b = true) (hcls : ∀ m, q.cls.sampleMem m = (m == 0))
    (hwords : q.cls.memWords 0 = cap) (hs : ∀ m, unitMem s q m = onlyMem 0 m b cap)
    (ht : ∀ m, unitMem t q m = onlyMem 0 m (memClear cap b) cap)
    (hzero : ∀ n, q.cls.clearedReg n = true → readReg t q n = some 0#32)
    (hkept : ∀ n, q.cls.clearedReg n = false → readReg t q n = readReg s q n) : ClearsUnit s t q where
  zeroMem m a hm ha := by
    obtain rfl : m = 0 := beq_iff_eq.1 ((hcls m).symm.trans hm)
    rw [readMem_eq, ht]
    exact shownMem_memClear hwf (hwords ▸ ha)
  keptMem m i hm := by
    have hne : m ≠ 0 := beq_eq_false_iff_ne.1 ((hcls m).symm.trans hm)
    rw [readMem_eq, readMem_eq, ht, hs, onlyMem, onlyMem, if_neg hne, if_neg hne]
  zeroReg := hzero
  keptReg := hkept

/-- A unit without sample memory. -/
theorem ClearsUnit.of_noBuffer (hcls : ∀ m, q.cls.sampleMem m = false) (hmem : ∀ m i, readMem t q m i = readMem s q m i)
    (hzero : ∀ n, q.cls.clearedReg n = true → readReg t q n = some 0#32)
    (hkept : ∀ n, q.cls.clearedReg n = false → readReg t q n = readReg s q n) : ClearsUnit s t q where
  zeroMem m _ hm := absurd hm (by rw [hcls m]; decide)
  keptMem m i _ := hmem m i
  zeroReg := hzero
  keptReg := hkept

end

/-! ## The registers of a cleared unit -/

section
variable {n : Nat}

theorem onePoleReg_clear (u : OnePole) :
    ((n == 3) = true → onePoleReg u.clear n = some 0#32) ∧ ((n == 3) = false → onePoleReg u.clear n = onePoleReg u n) := by
  refine ⟨fun hn => ?_, fun hn => ?_⟩
  · obtain rfl : n = 3 := beq_iff_eq.1 hn
    rfl
  · match n, hn with
    | 0, _ | 1, _ | 2, _ | _ + 4, _ => rfl

theorem shelfReg_clear (k : Config.ShelfKind) (u : Shelf) :
    ((decide (7 ≤ n) && decide (n ≤ 10)) = true → shelfReg k u.clear n = some 0#32) ∧
      ((decide (7 ≤ n) && decide (n ≤ 10)) = false → shelfReg k u.clear n = shelfReg k u n) := by
  refine ⟨fun hn => ?_, fun hn => ?_⟩
  · match n, hn with
    | 7, _ | 8, _ | 9, _ | 10, _ => rfl
  · match n, hn with
    | 0, _ | 1, _ | 2, _ | 3, _ | 4, _ | 5, _ | 6, _ | 11, _ | _ + 12, _ => rfl

theorem lineReg_clear (l : DelayLine) :
    ((decide (2 ≤ n) && decide (n ≤ 4)) = true → lineReg l.clear n = some 0#32) ∧
      ((decide (2 ≤ n) && decide (n ≤ 4)) = false → lineReg l.clear n = lineReg l n) := by
  refine ⟨fun hn => ?_, fun hn => ?_⟩
  · match n, hn with
    | 2, _ | 3, _ | 4, _ => rfl
  · match n, hn with
    | 0, _ | 1, _ | _ + 5, _ => rfl

theorem Diffuser.clear_stage_get (d : Diffuser) (k : Fin 12) : d.clear.stage[k] = d.stage[k].clear := getElem_vecMap _ _ k

end

/-! ## The units of a line and of a channel -/

section
variable {s t : State} {sd : Side} {q : UnitRef}

theorem clearsUnit_line {j : Fin 12} (h : t.line sd j = (s.line sd j).clear) (hl : (s.line sd j).Legal)
    (hq : LineUnit sd j q) : ClearsUnit s t q := by
  cases hq with
  | dline =>
    exact .of_buffer hl.q_wf (fun _ => rfl) rfl (fun _ => rfl) (fun m => congrArg (fun l : DelayLine => onlyMem 0 m l.q _) h)
      (fun n hn => (congrArg (lineReg · n) h).trans ((lineReg_clear _).1 hn))
      fun n hn => (congrArg (lineReg · n) h).trans ((lineReg_clear _).2 hn)
  | delay =>
    exact .of_buffer hl.delay.core.buf_wf (fun _ => rfl) rfl (fun _ => rfl)
      (fun m => congrArg (fun l : DelayLine => onlyMem 0 m l.delay.buf _) h) (fun _ hn => nomatch hn)
      fun n _ => ((congrArg (fun l : DelayLine => mdlyReg l.delay n) h).trans rfl).trans rfl
  | df =>
    exact .of_noBuffer (fun _ => rfl)
      (fun m i => (congrArg (fun l : DelayLine => shownMem (onlyMem 1 m l.df.seedV _) i) h).trans rfl) (fun _ hn => nomatch hn)
      fun n _ => ((congrArg (fun l : DelayLine => diffReg l.df n) h).trans rfl).trans rfl
  | stage k =>
    have hk : (t.line sd j).df.stage[k] = (s.line sd j).df.stage[k].clear := by
      rw [h]
      exact Diffuser.clear_stage_get _ k
    exact .of_buffer (hl.df.stage k).core.buf_wf (fun _ => rfl) rfl (fun _ => rfl)
      (fun m => congrArg (fun a : Allpass => onlyMem 0 m a.core.buf _) hk) (fun _ hn => nomatch hn)
      fun n _ => ((congrArg (mapReg · n) hk).trans rfl).trans rfl
  | shelf k =>
    cases k with
    | low =>
      exact .of_noBuffer (fun _ => rfl) (fun _ _ => rfl)
        (fun n hn => (congrArg (fun l : DelayLine => shelfReg .low l.ls n) h).trans ((shelfReg_clear _ _).1 hn))
        fun n hn => (congrArg (fun l : DelayLine => shelfReg .low l.ls n) h).trans ((shelfReg_clear _ _).2 hn)
    | high =>
      exact .of_noBuffer (fun _ => rfl) (fun _ _ => rfl)
        (fun n hn => (congrArg (fun l : DelayLine => shelfReg .high l.hs n) h).trans ((shelfReg_clear _ _).1 hn))
        fun n hn => (congrArg (fun l : DelayLine => shelfReg .high l.hs n) h).trans ((shelfReg_clear _ _).2 hn)
  | damp =>
    exact .of_noBuffer (fun _ => rfl) (fun _ _ => rfl)
      (fun n hn => (congrArg (fun l : DelayLine => onePoleReg l.damp n) h).trans ((onePoleReg_clear _).1 hn))
      fun n hn => (congrArg (fun l : DelayLine => onePoleReg l.damp n) h).trans ((onePoleReg_clear _).2 hn)

/-- The multitap has three more memories, which stay. -/
theorem clearsUnit_mtap (h : (t.chan sd).mt = (s.chan sd).mt.clear) (hl : (s.chan sd).mt.Legal) :
    ClearsUnit s t (.mtap sd) where
  zeroMem m a hm ha := by
    obtain rfl : m = 0 := beq_iff_eq.1 hm
    exact (congrArg (fun u => shownMem (mtapMem u 0) a) h).trans (shownMem_memClear hl.buf_wf ha)
  keptMem m i hm := by
    refine (congrArg (fun u => shownMem (mtapMem u m) i) h).trans ?_
    match m, hm with
    | 1, _ | 2, _ | 3, _ | _ + 4, _ => rfl
  zeroReg _ hn := nomatch hn
  keptReg n _ := (congrArg (mtapReg · n) h).trans rfl

theorem Channel.clear_line (c : Channel) (j : Fin 12) : c.clear.line[j] = c.line[j].clear := getElem_vecMap _ _ j

theorem clearsUnit_chan (h : t.chan sd = (s.chan sd).clear) (hl : (s.chan sd).Legal) (hq : ChanUnit sd q) :
    ClearsUnit s t q := by
  cases hq with
  | chan =>
    exact .of_noBuffer (fun _ => rfl) (fun _ _ => rfl) (fun _ hn => nomatch hn) fun n _ =>
      ((congrArg (chanReg · n) h).trans rfl).trans rfl
  | hp =>
    exact .of_noBuffer (fun _ => rfl) (fun _ _ => rfl)
      (fun n hn => (congrArg (fun c : Channel => onePoleReg c.hp n) h).trans ((onePoleReg_clear _).1 hn))
      fun n hn => (congrArg (fun c : Channel => onePoleReg c.hp n) h).trans ((onePoleReg_clear _).2 hn)
  | lp =>
    exact .of_noBuffer (fun _ => rfl) (fun _ _ => rfl)
      (fun n hn => (congrArg (fun c : Channel => onePoleReg c.lp n) h).trans ((onePoleReg_clear _).1 hn))
      fun n hn => (congrArg (fun c : Channel => onePoleReg c.lp n) h).trans ((onePoleReg_clear _).2 hn)
  | pre =>
    exact .of_buffer hl.pre.core.buf_wf (fun _ => rfl) rfl (fun _ => rfl)
      (fun m => congrArg (fun c : Channel => onlyMem 0 m c.pre.buf _) h) (fun _ hn => nomatch hn)
      fun n _ => ((congrArg (fun c : Channel => mdlyReg c.pre n) h).trans rfl).trans rfl
  | mt => exact clearsUnit_mtap (congrArg Channel.mt h) hl.mt
  | ed =>
    exact .of_noBuffer (fun _ => rfl) (fun m i => (congrArg (fun c : Channel => shownMem (onlyMem 1 m c.ed.seedV _) i) h).trans rfl)
      (fun _ hn => nomatch hn) fun n _ => ((congrArg (fun c : Channel => diffReg c.ed n) h).trans rfl).trans rfl
  | stage k =>
    have hk : (t.chan sd).ed.stage[k] = (s.chan sd).ed.stage[k].clear := by
      rw [h]
      exact Diffuser.clear_stage_get _ k
    exact .of_buffer (hl.ed.stage k).core.buf_wf (fun _ => rfl) rfl (fun _ => rfl)
      (fun m => congrArg (fun a : Allpass => onlyMem 0 m a.core.buf _) hk) (fun _ hn => nomatch hn)
      fun n _ => ((congrArg (mapReg · n) hk).trans rfl).trans rfl
  | line j hq =>
    have hj : t.line sd j = (s.line sd j).clear := by
      rw [State.line, h]
      exact Channel.clear_line _ j
    exact clearsUnit_line hj (hl.line j) hq

end

/-! ## The commands -/

/-- What a clear of the units inside does (R433). -/
def Clears (s : State) (inside : UnitRef → Prop) (t : State) : Prop :=
  (∀ q m a, inside q → q.cls.sampleMem m = true → a < q.cls.memWords m → readMem t q m a = some 0#32) ∧
  (∀ q n, inside q → q.cls.clearedReg n = true → readReg t q n = some 0#32) ∧
  Untouched s t (fun q n => inside q ∧ q.cls.clearedReg n = true) (fun q m _ => inside q ∧ q.cls.sampleMem m = true)

/-- It is enough that each unit inside is cleared and each other unit is untouched. -/
theorem clears_of_units {s t : State} {inside : UnitRef → Prop} (hin : ∀ q, inside q → ClearsUnit s t q)
    (hout : Untouched s t (fun q _ => inside q) fun q _ _ => inside q) : Clears s inside t := by
  obtain ⟨hreg, hmem, hrest⟩ := hout
  refine ⟨fun q m a hq => (hin q hq).zeroMem m a, fun q n hq => (hin q hq).zeroReg n, fun q n hn => ?_, fun q m i hm => ?_,
    hrest⟩
  · by_cases hq : inside q
    · exact (hin q hq).keptReg n (Bool.eq_false_iff.2 fun h => hn ⟨hq, h⟩)
    · exact hreg q n hq
  · by_cases hq : inside q
    · exact (hin q hq).keptMem m i (Bool.eq_false_iff.2 fun h => hm ⟨hq, h⟩)
    · exact hmem q m i hq

section
variable (s : State) (sd : Side)

theorem untouched_setLine_inside (j : Fin 12) (l : DelayLine) :
    Untouched s (s.setLine sd j l) (fun q _ => q.inLine sd j = true) fun q _ _ => q.inLine sd j = true :=
  untouched_setLine (fun _ _ hq hn => absurd (lineUnit_iff.1 hq) hn) fun _ _ _ hq hm => absurd (lineUnit_iff.1 hq) hm

theorem untouched_setChan_inside (c : Channel) :
    Untouched s (s.setChan sd c) (fun q _ => q.inChan sd = true) fun q _ _ => q.inChan sd = true :=
  untouched_setChan (fun _ _ hq hn => absurd (chanUnit_iff.1 hq) hn) fun _ _ _ hq hm => absurd (chanUnit_iff.1 hq) hm

end

/-- Settles O47: each unit by its own clear. -/
theorem clearCommands : Obligations.ClearCommands := by
  unfold Obligations.ClearCommands
  intro s u hp hl clears
  refine ⟨fun sd j hu => ?_, fun sd hu => ?_, fun hu => ?_⟩
  · refine ⟨s.setLine sd j (s.line sd j).clear, exec_dlClr hp hu, clears_of_units (fun q hq => ?_)
      (untouched_setLine_inside s sd j _)⟩
    exact clearsUnit_line (State.line_setLine_self ..) ((hl.chan sd).line j) (lineUnit_iff.2 hq)
  · refine ⟨s.setChan sd (s.chan sd).clear, exec_chClr hp hu, clears_of_units (fun q hq => ?_)
      (untouched_setChan_inside s sd _)⟩
    exact clearsUnit_chan (State.chan_setChan_self ..) (hl.chan sd) (chanUnit_iff.2 hq)
  · refine ⟨s.clearChannels, onEng_eq hp hu _, clears_of_units (fun q hq => ?_) ?_⟩
    · obtain ⟨sd, hq⟩ := hq
      refine clearsUnit_chan (sd := sd) ?_ (hl.chan sd) (chanUnit_iff.2 hq)
      cases sd <;> rfl
    · rw [State.clearChannels_eq]
      refine ((untouched_setChan_inside s .L s.left.clear).trans (untouched_setChan_inside _ .R s.right.clear)).mono
        (fun q _ hq => ?_) fun q _ _ hq => ?_
      · exact hq.elim (fun h => ⟨.L, h⟩) fun h => ⟨.R, h⟩
      · exact hq.elim (fun h => ⟨.L, h⟩) fun h => ⟨.R, h⟩

end Sys2Proof.Machine
end

section
/-! The denormal flush (spec/48_channel.md R312): the square of a value grows with its magnitude, so that the threshold on the
square is a threshold on the magnitude. -/

namespace Sys2Proof.Machine

/-- The pattern of the square of a value, as a function of its magnitude pattern. -/
def squareBits (m : Nat) : Nat := roundMag (unitsOf m * unitsOf m) (2 ^ 149)

theorem squareBits_mono {m n : Nat} (h : m ≤ n) : squareBits m ≤ squareBits n :=
  roundMag_mono (by decide) (by decide)
    (Nat.mul_le_mul_right _ (Nat.mul_le_mul (unitsOf_le_iff.2 h) (unitsOf_le_iff.2 h)))

theorem fmul_self_of_isFinite {a : F} (ha : isFinite a = true) : fmul a a = withSign false (squareBits (magBits a)) := by
  rw [fmul_of_isFinite ha ha, bne_self_eq_false, magUnits_eq, squareBits]

theorem squareBits_le (m : Nat) : squareBits m ≤ infBits := roundMag_le_inf _ _

/-- A value of positive sign against the threshold: the patterns compare. -/
theorem flt_withSign_flushThresh {m : Nat} (hm : m ≤ infBits) :
    flt (withSign false m) Config.flushThresh = true ↔ m < 0x3089705F := by
  have hlt : m < 2 ^ 31 := hm.trans_lt (by decide)
  have hnan : isNaN (withSign false m) = false := (signed_withSign false hm).notNaN
  have hkey : orderKey Config.flushThresh = 0x3089705F := by decide
  have hthresh : isNaN Config.flushThresh = false := by decide
  rw [flt, hnan, hthresh, orderKey_withSign false hlt, hkey]
  simp only [Bool.not_false, Bool.and_self, Bool.true_and, Bool.false_eq_true, if_false, decide_eq_true_eq]
  omega

/-- The last magnitude whose square is below the threshold, and the next. -/
theorem squareBits_flushLimit : squareBits 0x3804A2B2 < 0x3089705F ∧ 0x3089705F ≤ squareBits 0x3804A2B3 := by decide

theorem squareBits_lt_iff {m : Nat} : squareBits m < 0x3089705F ↔ m ≤ 0x3804A2B2 := by
  obtain ⟨hbelow, habove⟩ := squareBits_flushLimit
  refine ⟨fun h => ?_, fun h => (squareBits_mono h).trans_lt hbelow⟩
  by_contra hm
  exact absurd (habove.trans (squareBits_mono (by omega : 0x3804A2B3 ≤ m))) (not_le.2 h)

/-- R312 for every value, an infinity and a NaN included: their squares are not below any threshold. -/
theorem flt_fmul_self_iff (a : F) : flt (fmul a a) Config.flushThresh = true ↔ magBits a ≤ 0x3804A2B2 := by
  rcases lt_trichotomy (magBits a) infBits with hfin | hinf | hnan
  · have ha : isFinite a = true := decide_eq_true hfin
    rw [fmul_self_of_isFinite ha, flt_withSign_flushThresh (squareBits_le _), squareBits_lt_iff]
  · have hmul : fmul a a = withSign false infBits := by
      have hnan : isNaN a = false := decide_eq_false (by omega)
      have hi : isInf a = true := beq_iff_eq.2 hinf
      have h0 : isZero a = false := beq_false_of_ne (by rw [hinf]; decide)
      simp only [fmul, hnan, hi, h0, Bool.or_self, Bool.false_eq_true, if_false, if_true, bne_self_eq_false]
    rw [hmul, flt_withSign_flushThresh le_rfl, hinf]
    decide
  · have hmul : isNaN (fmul a a) = true := by
      have ha : isNaN a = true := decide_eq_true hnan
      simp only [fmul, ha, Bool.or_self, if_true]
      exact isNaN_nanResult _ _ _
    have hbound : ¬ magBits a ≤ 0x3804A2B2 := by
      have : infBits = 0x7F800000 := rfl
      omega
    rw [flt, hmul]
    simp only [Bool.not_true, Bool.false_and, Bool.false_eq_true, hbound]

/-- Settles O48. -/
theorem denormalFlush : Obligations.DenormalFlush := by
  unfold Obligations.DenormalFlush
  exact fun a => ⟨rfl, fun h => if_pos ((flt_fmul_self_iff a).2 h),
    fun h => if_neg fun hlt => absurd ((flt_fmul_self_iff a).1 hlt) (not_le.2 h)⟩

end Sys2Proof.Machine
end

section
/-! Silence in binary32 (spec/00_scope.md R10, R11): zeros of either sign stay zeros under the arithmetic of a signal path whose
gains are finite, and the gains that the units compute are finite (spec/43_allpass.md R196, spec/46_multitap.md R272, R281,
spec/48_channel.md R314). -/

namespace Sys2Proof.Machine

/-! ## Arithmetic on zeros -/

section
variable {x y z : F}

theorem isZero_fzero : isZero fzero = true := rfl

theorem isZero_roundUnits_zero (zneg : Bool) : isZero (roundUnits zneg 0) = true := by
  rw [roundUnits_of_eq_zero zneg rfl]
  cases zneg <;> rfl

theorem isZero_fadd (hx : isZero x = true) (hy : isZero y = true) : isZero (fadd x y) = true := by
  rw [fadd_of_isFinite (isFinite_of_isZero hx) (isFinite_of_isZero hy), toUnits_of_isZero hx, toUnits_of_isZero hy]
  exact isZero_roundUnits_zero _

theorem isZero_fsub (hx : isZero x = true) (hy : isZero y = true) : isZero (fsub x y) = true := by
  rw [fsub_of_isFinite (isFinite_of_isZero hx) (isFinite_of_isZero hy), toUnits_of_isZero hx, toUnits_of_isZero hy]
  exact isZero_roundUnits_zero _

theorem fmul_comm_of_isFinite (hx : isFinite x = true) (hy : isFinite y = true) : fmul x y = fmul y x := by
  rw [fmul_of_isFinite hx hy, fmul_of_isFinite hy hx, bne_comm, Nat.mul_comm]

theorem isZero_fmul_right (hx : isFinite x = true) (hz : isZero z = true) : isZero (fmul x z) = true := by
  rw [fmul_comm_of_isFinite hx (isFinite_of_isZero hz)]
  exact isZero_fmul hz hx

theorem fzero_fadd_of_isZero (hz : isZero z = true) : fadd fzero z = fzero := by
  rw [fadd_of_isFinite (by decide) (isFinite_of_isZero hz), toUnits_of_isZero hz, toUnits_fzero, add_zero,
    roundUnits_of_eq_zero _ rfl, show signBit fzero = false from rfl, Bool.false_and]
  rfl

theorem feq_fzero_of_isZero (hz : isZero z = true) : feq z fzero = true := by
  rw [eq_zero_of_isZero hz]
  cases signBit z <;> decide

theorem flt_of_isZero {e : F} (hz : isZero z = true) (he : flt fzero e = true) : flt z e = true := by
  rw [eq_zero_of_isZero hz]
  cases signBit z
  · exact he
  · exact he

/-- R312: the flush makes a zero of either sign `+0`. -/
theorem flush_of_isZero (hz : isZero z = true) : flush z = fzero :=
  if_pos ((flt_fmul_self_iff z).2 (by rw [beq_iff_eq.1 hz]; decide))

theorem isZero_flush (hz : isZero z = true) : isZero (flush z) = true := by
  rw [flush_of_isZero hz]
  exact isZero_fzero

end

/-! ## Quotients and roots that stay finite -/

section
variable {x y : F}

/-- The root of a value from 1 is at least 1. -/
theorem one_le_fsqrt (hx : isFinite x = true) (h1 : 2 ^ 149 ≤ toUnits x) :
    isFinite (fsqrt x) = true ∧ 2 ^ 149 ≤ toUnits (fsqrt x) := by
  have hs : signBit x = false := by
    rw [← Bool.not_eq_true]
    intro h
    rw [toUnits, if_pos h] at h1
    omega
  have hmag : toUnits x = magUnits x := by rw [toUnits, hs]; rfl
  have h0 : isZero x = false := by
    rw [← Bool.not_eq_true]
    intro h
    rw [toUnits_of_isZero h] at h1
    exact absurd h1 (by decide)
  obtain ⟨hsign, hfin, -, hbelow⟩ := fsqrt_rootedTo hx h0 hs
  have hroot : toUnits (fsqrt x) = magUnits (fsqrt x) := by rw [toUnits, hsign]; rfl
  refine ⟨(isFinite_iff _).2 hfin, ?_⟩
  by_contra hlt
  have hone : magUnits (BitVec.ofNat 32 0x3F800000) = 2 ^ 149 := by decide
  obtain ⟨hge, -⟩ := hbelow 0x3F800000 (by decide) (by rw [hone]; omega)
  rw [hone] at hge
  have hsum : magUnits (fsqrt x) + 2 ^ 149 < 2 ^ 150 := by omega
  have hsq : (magUnits (fsqrt x) + 2 ^ 149) ^ 2 < (2 ^ 150) ^ 2 := Nat.pow_lt_pow_left hsum two_ne_zero
  have hprod : 2 ^ 149 * 2 ^ 149 ≤ magUnits x * 2 ^ 149 := Nat.mul_le_mul_right _ (by omega)
  omega

/-- A value that is not negative, divided by one from 1, lies between 0 and itself. -/
theorem inRange_fdiv_of_one_le (hx : isFinite x = true) (h0 : 0 ≤ toUnits x) (hy : isFinite y = true)
    (h1 : 2 ^ 149 ≤ toUnits y) : inRange fzero x (fdiv x y) = true := by
  refine inRange_fdiv (by decide) hx hx hy (by omega) ?_ (mul_le_mul_of_nonneg_left h1 h0)
  rw [toUnits_fzero, zero_mul]
  exact mul_nonneg h0 (by decide)

end

/-! ## The gains of the units are finite -/

/-- R314: the weight of the lines. -/
theorem isFinite_lineScale {n : Nat} (h : linesOk n = true) : isFinite (lineScale n) = true := by
  obtain ⟨h1, h12⟩ := linesOk_iff.1 h
  obtain ⟨hnf, hnu⟩ := itof_exact (n := n) (by omega)
  obtain ⟨hrf, hru⟩ := one_le_fsqrt hnf (by rw [hnu]; omega)
  exact ((inRange_iff (by decide) (by decide)).1 (inRange_fdiv_of_one_le (x := fone) (by decide) (by decide) hrf hru)).1

/-- R272: the total gain, a quotient of at most 3 by a root from 1, times a factor of at most 3. -/
theorem isFinite_totalGain {taps : Nat} {decay : F} (ht : tapsOk taps = true) (hd : inUnit decay = true) :
    isFinite (totalGain taps decay) = true := by
  obtain ⟨h1, h256⟩ := tapsOk_iff.1 ht
  obtain ⟨hdf, hd0, hd1⟩ := inUnit_iff.1 hd
  obtain ⟨hnf, hnu⟩ := itof_exact (n := taps) (by omega)
  obtain ⟨h257, h257u⟩ := itof_exact (n := 257) (by omega)
  obtain ⟨hsf, hs1, -⟩ := (inRange_iff (by decide) h257).1
    (inRange_fadd (lo := fone) (x := fone) (by decide) h257 (by decide) hnf (by rw [hnu]; omega)
      (by rw [hnu, h257u, toUnits_fone]; omega))
  obtain ⟨hrf, hru⟩ := one_le_fsqrt hsf (by rwa [toUnits_fone] at hs1)
  have hnum : toUnits Config.mtGainNum = 3 * 2 ^ 149 := by decide
  obtain ⟨hqf, hq0, hq3⟩ := (inRange_iff (by decide) (by decide)).1
    (inRange_fdiv_of_one_le (x := Config.mtGainNum) (by decide) (by decide) hrf hru)
  obtain ⟨htf, ht0, ht2⟩ := (inRange_iff (by decide) (by decide)).1
    (inRange_fmul (lo := fzero) (hi := ftwo) (x := ftwo) (by decide) (by decide) (by decide) hdf
      (by rw [toUnits_fzero, toUnits_ftwo]; omega) (by rw [toUnits_ftwo]; omega))
  obtain ⟨hff, hf0, hf3⟩ := (inRange_iff (by decide) (by decide)).1
    (inRange_fadd (lo := fzero) (hi := Config.mtGainNum) (x := fone) (by decide) (by decide) (by decide) htf
      (by rw [toUnits_fzero] at ht0 ⊢; rw [toUnits_fone]; omega)
      (by rw [toUnits_ftwo] at ht2; rw [toUnits_fone, hnum]; omega))
  rw [toUnits_fzero] at hq0 hf0
  have h9 : toUnits 0x41100000#32 = 9 * 2 ^ 149 := by decide
  refine ((inRange_iff (by decide) (by decide)).1 (inRange_fmul (lo := fzero) (hi := 0x41100000#32) (by decide) (by decide)
    hqf hff ?_ ?_)).1
  · rw [toUnits_fzero, zero_mul]
    exact mul_nonneg hq0 hf0
  · calc _ ≤ toUnits Config.mtGainNum * toUnits Config.mtGainNum := mul_le_mul hq3 hf3 hf0 (by decide)
      _ ≤ _ := by rw [hnum, h9]; decide

/-- `EXP_RANGE` (00_scope.md R13): `fexp` of a finite value that is not positive lies in [0, 1]. -/
def ExpRange (cfg : Config.Params) : Prop :=
  ∀ v, isFinite v = true → fle v fzero = true → fle fzero (cfg.fexp v) = true ∧ fle (cfg.fexp v) fone = true

/-- R281: the envelope of a tap at an offset within the length: the exponential and `1 - decay` lie in [0, 1]. -/
theorem isFinite_tapEnvelope {cfg : Config.Params} (hexp : ExpRange cfg) {off : Int} {len : Nat} {decay : F}
    (hlen : lenOk len = true) (h0 : 0 ≤ off) (hle : off ≤ len) (hd : inUnit decay = true) :
    isFinite (tapEnvelope cfg off (itof len) decay) = true := by
  obtain ⟨hl1, hl2⟩ := lenOk_iff.1 hlen
  obtain ⟨k, rfl⟩ := Int.eq_ofNat_of_zero_le h0
  have hk : k ≤ len := by exact_mod_cast hle
  obtain ⟨hlf, hlu⟩ := itof_exact (n := len) (by omega)
  obtain ⟨hof, hou⟩ := itof_exact (n := k) (by omega)
  obtain ⟨hqf, hq0, hq1⟩ := (inRange_iff (by decide) (by decide)).1
    (inRange_fdiv (lo := fnegOne) (hi := fzero) (x := fneg (itof k)) (by decide) (by decide) ((isFinite_fneg _).trans hof) hlf
      (by rw [hlu]; omega) (by rw [toUnits_fneg, hou, hlu, toUnits_fnegOne]; omega)
      (by rw [toUnits_fneg, hou, hlu, toUnits_fzero]; omega))
  rw [toUnits_fnegOne] at hq0
  rw [toUnits_fzero] at hq1
  have hKpos : 0 ≤ toUnits Config.mtDecayK := by decide
  obtain ⟨hvf, -, hv0⟩ := (inRange_iff (by decide) (by decide)).1
    (inRange_fmul (lo := fneg Config.mtDecayK) (hi := fzero) (y := Config.mtDecayK) (by decide) (by decide) hqf (by decide)
      (by rw [toUnits_fneg, neg_mul, mul_comm, ← neg_mul]; exact mul_le_mul_of_nonneg_right hq0 hKpos)
      (by rw [toUnits_fzero, zero_mul]; exact mul_nonpos_of_nonpos_of_nonneg hq1 hKpos))
  obtain ⟨he0, he1⟩ := hexp _ hvf ((fle_iff hvf (by decide)).2 hv0)
  have hunit : inUnit (cfg.fexp (fmul (fdiv (fneg (itof k)) (itof len)) Config.mtDecayK)) = true :=
    Bool.and_eq_true_iff.2 ⟨he0, he1⟩
  obtain ⟨haf, ha0, ha1⟩ := inUnit_iff.1 (inUnit_fmul hunit hd)
  obtain ⟨hbf, hb0, hb1⟩ := inUnit_iff.1 (inUnit_one_sub hd)
  exact ((inRange_iff (by decide) (by decide)).1 (inRange_fadd (lo := fzero) (hi := ftwo) (by decide) (by decide) haf hbf
    (by rw [toUnits_fzero]; omega) (by rw [toUnits_ftwo]; omega))).1

/-- R196: both gains of the taps of a legal base delay and amount. -/
theorem isFinite_tapCalc_gains (cfg : Config.Params) {cap dly : Nat} {modA : F} (phase : F) (hcap : cap ≤ 2 ^ 20)
    (hdly : delayOk cap dly = true) (hmod : modAOk cap modA = true) :
    isFinite (tapCalc cfg dly modA phase).gainA = true ∧ isFinite (tapCalc cfg dly modA phase).gainB = true := by
  obtain ⟨t, heq, ht⟩ := exists_tapCalc_eq_ofTotal cfg phase hcap hdly hmod
  have hle := le_of_delayOk hdly
  have hgain := inRange_ofTotal_gainB (by omega) ht
  obtain ⟨hgf, hg0, hg1⟩ := (inRange_iff (by decide) (by decide)).1 hgain
  rw [toUnits_belowOne] at hg1
  rw [heq]
  exact ⟨(inUnit_iff.1 (inUnit_one_sub (inUnit_iff.2 ⟨hgf, hg0, by omega⟩))).1, hgf⟩

end Sys2Proof.Machine
end

section
/-! Silence through the units of a signal path (spec/48_channel.md R329): a unit is `Calm` when its sample memories and
histories are zero and its gains are finite; a calm unit answers a zero with a zero and is calm afterwards. -/

namespace Sys2Proof.Machine

/-- A step answers a zero and leaves a unit with `P`. -/
def Still {α : Type} (P : α → Prop) (r : F × α) : Prop := isZero r.1 = true ∧ P r.2

section
variable {cfg : Config.Params} {v : F}

/-! ## A sample memory -/

theorem silentMem_memWrite {m : Mem} (hwf : Memory.wf m = true) (hm : silentMem m) (hv : isZero v = true) (a : Nat) :
    silentMem (memWrite m a v) := by
  intro i
  rw [memRead_memWrite hwf]
  split
  · exact hv
  · exact hm i

theorem isZero_memTap {m : Mem} (hm : silentMem m) (widx : Nat) (d : Int) (cap : Nat) :
    isZero (memTap m widx d cap) = true := hm _

/-! ## The modulated delays (R198, R260) -/

/-- A modulated delay with silent buffer, finite gains, and legal registers to derive them from. -/
structure ModDelay.Calm (cap : Nat) (u : ModDelay) : Prop where
  dly : delayOk cap u.dly = true
  modA : modAOk cap u.modA = true
  gainA : isFinite u.taps.gainA = true
  gainB : isFinite u.taps.gainB = true
  wf : Memory.wf u.buf = true
  buf : silentMem u.buf

theorem ModDelay.calm_of_coherent {cap : Nat} {u : ModDelay} (hcap : cap ≤ 2 ^ 20) (hl : u.Legal cap)
    (hmod : modAOk cap u.modA = true) (hc : u.Coherent cfg) (hs : silentMem u.buf) : u.Calm cap := by
  have hdly : delayOk cap u.dly = true := delayOk_iff.2 ⟨hl.dly_ge, hl.dly_le⟩
  obtain ⟨hA, hB⟩ := isFinite_tapCalc_gains cfg u.phase hcap hdly hmod
  rw [← (hc : u.taps = _)] at hA hB
  exact ⟨hdly, hmod, hA, hB, hl.buf_wf, hs⟩

theorem ModDelay.Calm.write {cap : Nat} {u : ModDelay} (h : u.Calm cap) (hv : isZero v = true) (a : Nat) :
    ({ u with buf := memWrite u.buf a v } : ModDelay).Calm cap :=
  ⟨h.dly, h.modA, h.gainA, h.gainB, wf_memWrite h.wf a v, silentMem_memWrite h.wf h.buf hv a⟩

/-- The cursors and the phase play no part in the silence of a delay. -/
theorem ModDelay.Calm.withCursors {cap : Nat} {u : ModDelay} (h : u.Calm cap) (c w : Nat) :
    ({ u with cnt := c, widx := w } : ModDelay).Calm cap :=
  ⟨h.dly, h.modA, h.gainA, h.gainB, h.wf, h.buf⟩

theorem ModDelay.Calm.tick {cap : Nat} {u : ModDelay} (h : u.Calm cap) (hcap : cap ≤ 2 ^ 20) : (u.tick cfg).Calm cap := by
  unfold ModDelay.tick
  split
  · unfold ModDelay.retap
    obtain ⟨hA, hB⟩ := isFinite_tapCalc_gains cfg u.modUpdate.phase hcap h.dly h.modA
    exact ⟨h.dly, h.modA, hA, hB, h.wf, h.buf⟩
  · exact h

theorem ModDelay.Calm.blend {cap : Nat} {u : ModDelay} (h : u.Calm cap) (n : Nat) : isZero (u.blend n) = true :=
  isZero_fadd (isZero_fmul (isZero_memTap h.buf _ _ _) h.gainA) (isZero_fmul (isZero_memTap h.buf _ _ _) h.gainB)

theorem ModDelay.Calm.step {u : ModDelay} (h : u.Calm Config.dlCap) (hv : isZero v = true) :
    Still (ModDelay.Calm Config.dlCap) (mdlyStep cfg u v) := by
  unfold mdlyStep
  have hw := (h.write hv u.widx).tick (cfg := cfg) dlCap_le
  exact ⟨hw.blend _, hw.withCursors _ _⟩

/-- An all-pass with calm core and finite feedback. -/
structure Allpass.Calm (u : Allpass) : Prop where
  core : u.core.Calm Config.apCap
  fb : isFinite u.fb = true

theorem Allpass.Calm.read {u : Allpass} (h : u.Calm) : Still (ModDelay.Calm Config.apCap) (u.read cfg) := by
  unfold Allpass.read
  split
  · have hc := h.core.tick (cfg := cfg) apCap_le
    refine ⟨?_, hc.withCursors _ _⟩
    split
    · exact hc.blend _
    · exact isZero_memTap hc.buf _ _ _
  · exact ⟨isZero_memTap h.core.buf _ _ _, h.core⟩

theorem Allpass.Calm.step {u : Allpass} (h : u.Calm) (hv : isZero v = true) : Still Allpass.Calm (mapStep cfg u v) := by
  unfold mapStep
  obtain ⟨hread, hcore⟩ := h.read (cfg := cfg)
  have hw : isZero (fadd v (fmul u.fb (u.read cfg).1)) = true := isZero_fadd hv (isZero_fmul_right h.fb hread)
  exact ⟨isZero_fsub hread (isZero_fmul_right h.fb hw), (hcore.write hw _).withCursors _ _, h.fb⟩

/-- A diffuser of calm stages. -/
def Diffuser.Calm (d : Diffuser) : Prop := ∀ k : Fin 12, d.stage[k].Calm

theorem Diffuser.calm_of_coherent {d : Diffuser} (hl : d.Legal) (hr : d.Ranged) (hc : d.Coherent cfg) (hs : d.Silent) :
    d.Calm := fun k =>
  ⟨ModDelay.calm_of_coherent apCap_le (hl.stage k).core (hr.stage k).modA (hc.stage k) (hs k), (hl.stage k).fb⟩

theorem still_cascadeStage {stages : Nat} {acc : F × Vector Allpass 12}
    (h : Still (fun s : Vector Allpass 12 => ∀ k : Fin 12, s[k].Calm) acc) (k : Fin 12) :
    Still (fun s : Vector Allpass 12 => ∀ k : Fin 12, s[k].Calm) (cascadeStage cfg stages acc k) := by
  obtain ⟨hv, hs⟩ := h
  unfold cascadeStage
  split
  · obtain ⟨hy, hk⟩ := (hs k).step (cfg := cfg) hv
    refine ⟨hy, fun j => ?_⟩
    rw [vec_set_get]
    split
    · exact hk
    · exact hs j
  · exact ⟨hv, hs⟩

theorem Diffuser.Calm.step {d : Diffuser} (h : d.Calm) (hv : isZero v = true) : Still Diffuser.Calm (diffStep cfg d v) :=
  List.foldlRecOn (motive := Still fun s : Vector Allpass 12 => ∀ k : Fin 12, s[k].Calm) idx12
    (cascadeStage cfg d.stages) ⟨hv, h⟩ fun _ hacc k _ => still_cascadeStage hacc k

/-! ## The filters (R158, R159, R172) -/

/-- The history of a one-pole filter is zero. -/
def OnePole.Calm (u : OnePole) : Prop := isZero u.z = true

/-- The epsilons are positive, so a zero takes the silence branch whatever the coefficients are (R160). -/
theorem OnePole.Calm.lp1Step {u : OnePole} (h : u.Calm) (hv : isZero v = true) : Still OnePole.Calm (lp1Step cfg u v) := by
  rw [lp1Step_of_silent (feq_fzero_of_isZero hv) (flt_of_isZero h (flt_fzero_positiveFinite _))]
  exact ⟨isZero_fzero, isZero_fzero⟩

theorem OnePole.Calm.hp1Step {u : OnePole} (h : u.Calm) (hv : isZero v = true) : Still OnePole.Calm (hp1Step cfg u v) := by
  rw [hp1Step_of_silent (feq_fzero_of_isZero hv) (flt_of_isZero h (flt_fzero_positiveFinite _))]
  exact ⟨isZero_fzero, h⟩

/-- A shelf with finite coefficients and zero history. -/
structure Shelf.Calm (u : Shelf) : Prop where
  tame : u.Tame
  silent : u.Silent

theorem Shelf.Calm.step {u : Shelf} (h : u.Calm) (hv : isZero v = true) : Still Shelf.Calm (shelfStep u v) := by
  obtain ⟨⟨hb0, hb1, hb2, ha1, ha2⟩, hx1, hx2, hy1, hy2⟩ := h
  have hy : isZero (u.output v) = true :=
    isZero_fsub (isZero_fsub (isZero_fadd (isZero_fadd (isZero_fmul_right hb0 hv) (isZero_fmul_right hb1 hx1))
      (isZero_fmul_right hb2 hx2)) (isZero_fmul_right ha1 hy1)) (isZero_fmul_right ha2 hy2)
  exact ⟨hy, ⟨hb0, hb1, hb2, ha1, ha2⟩, hv, hx1, hy, hy1⟩

/-! ## The multitap delay (R281) -/

/-- A multitap delay with legal settings, tame taps and a silent buffer. -/
structure Multitap.Calm (u : Multitap) : Prop where
  taps : tapsOk u.taps = true
  len : lenOk u.len = true
  decay : inUnit u.decay = true
  tame : u.Tame
  wf : Memory.wf u.buf = true
  buf : silentMem u.buf

theorem Multitap.calm_of_legal {u : Multitap} (hl : u.Legal) (ht : u.Tame) (hs : silentMem u.buf) : u.Calm :=
  ⟨hl.taps, hl.len, hl.decay, ht, hl.buf_wf, hs⟩

/-- The offset of every tap lies within the length (R281), so its envelope is finite. -/
theorem Multitap.Calm.tapTerm {u : Multitap} (h : u.Calm) (hexp : ExpRange cfg) {i : Nat} (hi : i < u.taps) :
    isZero (u.tapTerm cfg i) = true := by
  have hmax : i < Config.maxTaps := hi.trans_le (tapsOk_iff.1 h.taps).2
  obtain ⟨h0, hle⟩ := multitapOffsets _ i u.taps u.len h.taps h.len hi (h.tame.pos i hmax)
  exact isZero_fmul (isZero_fmul (isZero_fmul (isZero_memTap h.buf _ _ _) (h.tame.gain i hmax))
    (isFinite_tapEnvelope hexp h.len h0 hle h.decay)) (isFinite_totalGain h.taps h.decay)

theorem Multitap.Calm.step {u : Multitap} (h : u.Calm) (hexp : ExpRange cfg) (hv : isZero v = true) :
    Still Multitap.Calm (mtapStep cfg u v) := by
  have hw : ({ u with buf := memWrite u.buf u.widx v } : Multitap).Calm :=
    ⟨h.taps, h.len, h.decay, ⟨h.tame.gain, h.tame.pos⟩, wf_memWrite h.wf _ v, silentMem_memWrite h.wf h.buf hv _⟩
  refine ⟨?_, hw.taps, hw.len, hw.decay, ⟨h.tame.gain, h.tame.pos⟩, hw.wf, hw.buf⟩
  exact List.foldlRecOn (motive := fun a => isZero a = true) _ _ isZero_fzero fun _ ha i hi =>
    isZero_fadd ha (hw.tapTerm hexp (List.mem_range.1 hi))

end

end Sys2Proof.Machine
end

section
/-! Silent in, silent out (spec/48_channel.md R329): a calm line and a calm channel answer zeros with zeros and stay calm, and
a block keeps the premises of R329 on the configuration, whatever its input is. -/

namespace Sys2Proof.Machine

section
variable {cfg : Config.Params}

/-- Every value of a block is a zero. -/
def ZeroBlock (x : List F) : Prop := ∀ a, a ∈ x → isZero a = true

theorem zeroBlock_nil : ZeroBlock [] := fun _ h => absurd h List.not_mem_nil

theorem zeroBlock_cons {a : F} {x : List F} : ZeroBlock (a :: x) ↔ isZero a = true ∧ ZeroBlock x := List.forall_mem_cons

/-- What holds of the function of any two entries holds of every entry of the list. -/
theorem forall_mem_zipWith {α β γ : Type} {f : α → β → γ} {p : γ → Prop} {as : List α} {bs : List β}
    (h : ∀ a, a ∈ as → ∀ b, b ∈ bs → p (f a b)) : ∀ y, y ∈ List.zipWith f as bs → p y := by
  intro y hy
  obtain ⟨i, hi, rfl⟩ := List.mem_iff_getElem.1 hy
  rw [List.getElem_zipWith]
  exact h _ (List.getElem_mem _) _ (List.getElem_mem _)

/-! ## A delay line (R293) -/

/-- A line with calm units, finite feedback gain and a silent queue. -/
structure DelayLine.Calm (l : DelayLine) : Prop where
  delay : l.delay.Calm Config.dlCap
  df : l.df.Calm
  ls : l.ls.Calm
  hs : l.hs.Calm
  damp : l.damp.Calm
  fb : isFinite l.fb = true
  q_wf : Memory.wf l.q = true
  q : silentMem l.q

section
variable {l : DelayLine} {y : F}

theorem DelayLine.Calm.pop (h : l.Calm) : Still DelayLine.Calm l.pop := by
  unfold DelayLine.pop
  split
  · exact ⟨h.q _, h.delay, h.df, h.ls, h.hs, h.damp, h.fb, h.q_wf, h.q⟩
  · exact ⟨isZero_fzero, h⟩

theorem DelayLine.Calm.push (h : l.Calm) (hy : isZero y = true) : (l.push y).Calm := by
  unfold DelayLine.push
  split
  · exact ⟨h.delay, h.df, h.ls, h.hs, h.damp, h.fb, wf_memWrite h.q_wf _ y, silentMem_memWrite h.q_wf h.q hy _⟩
  · exact h

theorem DelayLine.Calm.popN (h : l.Calm) (n : Nat) :
    ZeroBlock (DelayLine.popN n l).1 ∧ (DelayLine.popN n l).2.Calm := by
  induction n generalizing l with
  | zero => exact ⟨zeroBlock_nil, h⟩
  | succ n ih =>
    obtain ⟨hv, hl⟩ := h.pop
    obtain ⟨hvs, hl'⟩ := ih hl
    exact ⟨zeroBlock_cons.2 ⟨hv, hvs⟩, hl'⟩

theorem DelayLine.Calm.pushAll (h : l.Calm) {vs : List F} (hvs : ZeroBlock vs) : (l.pushAll vs).Calm :=
  List.foldlRecOn (motive := DelayLine.Calm) vs DelayLine.push h fun _ hl v hv => hl.push (hvs v hv)

theorem DelayLine.Calm.viaDiffuser (h : l.Calm) (hy : isZero y = true) : Still DelayLine.Calm (l.viaDiffuser cfg y) := by
  unfold DelayLine.viaDiffuser
  split
  · obtain ⟨hz, hdf⟩ := h.df.step (cfg := cfg) hy
    exact ⟨hz, h.delay, hdf, h.ls, h.hs, h.damp, h.fb, h.q_wf, h.q⟩
  · exact ⟨hy, h⟩

theorem DelayLine.Calm.viaLowShelf (h : l.Calm) (hy : isZero y = true) : Still DelayLine.Calm (l.viaLowShelf y) := by
  unfold DelayLine.viaLowShelf
  split
  · obtain ⟨hz, hls⟩ := h.ls.step hy
    exact ⟨hz, h.delay, h.df, hls, h.hs, h.damp, h.fb, h.q_wf, h.q⟩
  · exact ⟨hy, h⟩

theorem DelayLine.Calm.viaHighShelf (h : l.Calm) (hy : isZero y = true) : Still DelayLine.Calm (l.viaHighShelf y) := by
  unfold DelayLine.viaHighShelf
  split
  · obtain ⟨hz, hhs⟩ := h.hs.step hy
    exact ⟨hz, h.delay, h.df, h.ls, hhs, h.damp, h.fb, h.q_wf, h.q⟩
  · exact ⟨hy, h⟩

theorem DelayLine.Calm.viaDamping (h : l.Calm) (hy : isZero y = true) : Still DelayLine.Calm (l.viaDamping cfg y) := by
  unfold DelayLine.viaDamping
  split
  · obtain ⟨hz, hdamp⟩ := h.damp.lp1Step (cfg := cfg) hy
    exact ⟨hz, h.delay, h.df, h.ls, h.hs, hdamp, h.fb, h.q_wf, h.q⟩
  · exact ⟨hy, h⟩

/-- The output is one of the three signals, whichever tap point the flags choose (R292). -/
theorem isZero_lineTap (flags : BitVec 5) {d t y : F} (hd : isZero d = true) (ht : isZero t = true) (hy : isZero y = true) :
    isZero (lineTap flags d t y) = true := by
  unfold lineTap
  split
  · cases Config.postTapPoint with
    | afterDiffuser => exact ht
    | endOfChain => exact hy
  · exact hd

/-- R293: a zero fed by a zero gives a zero at the output and a zero for the queue. -/
theorem DelayLine.Calm.sample (h : l.Calm) {x fbv : F} (hx : isZero x = true) (hf : isZero fbv = true) :
    isZero (l.sample cfg x fbv).1 = true ∧ Still DelayLine.Calm (l.sample cfg x fbv).2 := by
  obtain ⟨hd, hdelay⟩ := h.delay.step (cfg := cfg) (isZero_fadd hx (isZero_fmul hf h.fb))
  have h0 : ({ l with delay := (mdlyStep cfg l.delay (fadd x (fmul fbv l.fb))).2 } : DelayLine).Calm :=
    ⟨hdelay, h.df, h.ls, h.hs, h.damp, h.fb, h.q_wf, h.q⟩
  obtain ⟨ht, h1⟩ := h0.viaDiffuser (cfg := cfg) hd
  obtain ⟨hy1, h2⟩ := h1.viaLowShelf ht
  obtain ⟨hy2, h3⟩ := h2.viaHighShelf hy1
  obtain ⟨hy, h4⟩ := h3.viaDamping (cfg := cfg) hy2
  exact ⟨isZero_lineTap l.flags hd ht hy, hy, h4⟩

theorem DelayLine.Calm.samples (h : l.Calm) {xs : List (F × F)}
    (hxs : ∀ p, p ∈ xs → isZero p.1 = true ∧ isZero p.2 = true) :
    ZeroBlock (l.samples cfg xs).1 ∧ ZeroBlock (l.samples cfg xs).2.1 ∧ (l.samples cfg xs).2.2.Calm := by
  induction xs generalizing l with
  | nil => exact ⟨zeroBlock_nil, zeroBlock_nil, h⟩
  | cons p xs ih =>
    obtain ⟨⟨hx, hf⟩, hrest⟩ := List.forall_mem_cons.1 hxs
    obtain ⟨ho, hp, hl⟩ := h.sample (cfg := cfg) hx hf
    obtain ⟨hos, hps, hl'⟩ := ih hl hrest
    exact ⟨zeroBlock_cons.2 ⟨ho, hos⟩, zeroBlock_cons.2 ⟨hp, hps⟩, hl'⟩

theorem DelayLine.Calm.proc (h : l.Calm) {x : List F} (hx : ZeroBlock x) :
    ZeroBlock (dlineProc cfg l x).1 ∧ (dlineProc cfg l x).2.Calm := by
  obtain ⟨hf, hl⟩ := h.popN x.length
  have hzip : ∀ p, p ∈ x.zip (DelayLine.popN x.length l).1 → isZero p.1 = true ∧ isZero p.2 = true :=
    fun p hp => ⟨hx _ (List.of_mem_zip hp).1, hf _ (List.of_mem_zip hp).2⟩
  obtain ⟨ho, hp, hl'⟩ := hl.samples (cfg := cfg) hzip
  exact ⟨ho, hl'.pushAll hp⟩

theorem DelayLine.Calm.silent (h : l.Calm) : l.Silent :=
  ⟨h.delay.buf, fun k => (h.df k).core.buf, h.ls.silent, h.hs.silent, h.damp, h.q⟩

end

/-! ## A channel (R314) -/

/-- A channel with calm units and a finite input weight. -/
structure Channel.Calm (c : Channel) : Prop where
  hp : c.hp.Calm
  lp : c.lp.Calm
  pre : c.pre.Calm Config.dlCap
  mt : c.mt.Calm
  ed : c.ed.Calm
  line : ∀ j : Fin 12, c.line[j].Calm
  inMix : isFinite c.inMix = true

section
variable {c : Channel} {a : F}

theorem Channel.calm_of_tame (ht : c.Tame cfg) (hs : c.Silent) : c.Calm where
  hp := hs.hp
  lp := hs.lp
  pre := ModDelay.calm_of_coherent dlCap_le ht.legal.pre.core ht.legal.pre.modA ht.coherent.pre hs.pre
  mt := Multitap.calm_of_legal ht.legal.mt ht.mt hs.mt
  ed := Diffuser.calm_of_coherent ht.legal.ed ht.ed ht.coherent.ed hs.ed
  line j := by
    have hl := ht.legal.line j
    have hc := ht.coherent.line j
    have hj := hs.line j
    exact ⟨ModDelay.calm_of_coherent dlCap_le hl.delay.core hl.delay.modA hc.delay hj.delay,
      Diffuser.calm_of_coherent hl.df (ht.df j) hc.df hj.df, ⟨ht.ls j, hj.ls⟩, ⟨ht.hs j, hj.hs⟩, hj.damp, ht.fb j,
      hl.q_wf, hj.q⟩
  inMix := ht.legal.inMix

theorem Channel.Calm.silent (h : c.Calm) : c.Silent :=
  ⟨h.hp, h.lp, h.pre.buf, h.mt.buf, fun k => (h.ed k).core.buf, fun j => (h.line j).silent⟩

theorem Channel.Calm.viaHighPass (h : c.Calm) (ha : isZero a = true) : Still Channel.Calm (c.viaHighPass cfg a) := by
  unfold Channel.viaHighPass
  split
  · obtain ⟨hz, hhp⟩ := h.hp.hp1Step (cfg := cfg) ha
    exact ⟨hz, hhp, h.lp, h.pre, h.mt, h.ed, h.line, h.inMix⟩
  · exact ⟨ha, h⟩

theorem Channel.Calm.viaLowPass (h : c.Calm) (ha : isZero a = true) : Still Channel.Calm (c.viaLowPass cfg a) := by
  unfold Channel.viaLowPass
  split
  · obtain ⟨hz, hlp⟩ := h.lp.lp1Step (cfg := cfg) ha
    exact ⟨hz, h.hp, hlp, h.pre, h.mt, h.ed, h.line, h.inMix⟩
  · exact ⟨ha, h⟩

theorem Channel.Calm.viaMultitap (h : c.Calm) (hexp : ExpRange cfg) (ha : isZero a = true) :
    Still Channel.Calm (c.viaMultitap cfg a) := by
  unfold Channel.viaMultitap
  split
  · obtain ⟨hz, hmt⟩ := h.mt.step hexp ha
    exact ⟨hz, h.hp, h.lp, h.pre, hmt, h.ed, h.line, h.inMix⟩
  · exact ⟨ha, h⟩

theorem Channel.Calm.viaEarlyDiffuser (h : c.Calm) (ha : isZero a = true) :
    Still Channel.Calm (c.viaEarlyDiffuser cfg a) := by
  unfold Channel.viaEarlyDiffuser
  split
  · obtain ⟨hz, hed⟩ := h.ed.step (cfg := cfg) ha
    exact ⟨hz, h.hp, h.lp, h.pre, h.mt, hed, h.line, h.inMix⟩
  · exact ⟨ha, h⟩

theorem Channel.Calm.input (h : c.Calm) (ha : isZero a = true) : Still Channel.Calm (chanInput cfg c a) := by
  obtain ⟨h1, hc1⟩ := h.viaHighPass (cfg := cfg) (isZero_fmul ha h.inMix)
  obtain ⟨h2, hc2⟩ := hc1.viaLowPass (cfg := cfg) h1
  exact ⟨isZero_flush h2, hc2⟩

theorem Channel.Calm.early (h : c.Calm) (hexp : ExpRange cfg) (ha : isZero a = true) :
    Still Channel.Calm (chanEarly cfg c a) := by
  obtain ⟨he, hpre⟩ := h.pre.step (cfg := cfg) ha
  have hc1 : ({ c with pre := (mdlyStep cfg c.pre a).2 } : Channel).Calm :=
    ⟨h.hp, h.lp, hpre, h.mt, h.ed, h.line, h.inMix⟩
  obtain ⟨he2, hc2⟩ := hc1.viaMultitap hexp he
  exact hc2.viaEarlyDiffuser he2

theorem Channel.Calm.earlyBlock (h : c.Calm) (hexp : ExpRange cfg) {x : List F} (hx : ZeroBlock x) :
    ZeroBlock (chanEarlyBlock cfg c x).1 ∧ (chanEarlyBlock cfg c x).2.Calm := by
  induction x generalizing c with
  | nil => exact ⟨zeroBlock_nil, h⟩
  | cons a x ih =>
    obtain ⟨ha, hrest⟩ := zeroBlock_cons.1 hx
    obtain ⟨hin, hc1⟩ := h.input (cfg := cfg) ha
    obtain ⟨he, hc2⟩ := hc1.early hexp hin
    obtain ⟨hes, hc3⟩ := ih hc2 hrest
    exact ⟨zeroBlock_cons.2 ⟨he, hes⟩, hc3⟩

theorem calm_chanLine {lines : Nat} {e : List F} (he : ZeroBlock e) {acc : List F × Vector DelayLine 12}
    (h : ZeroBlock acc.1 ∧ ∀ j : Fin 12, acc.2[j].Calm) (j : Fin 12) :
    ZeroBlock (chanLine cfg lines e acc j).1 ∧ ∀ k : Fin 12, (chanLine cfg lines e acc j).2[k].Calm := by
  obtain ⟨hsum, hline⟩ := h
  unfold chanLine
  split
  · obtain ⟨ho, hl⟩ := (hline j).proc (cfg := cfg) he
    refine ⟨forall_mem_zipWith fun a ha b hb => isZero_fadd (hsum a ha) (ho b hb), fun k => ?_⟩
    rw [vec_set_get]
    split
    · exact hl
    · exact hline k
  · exact ⟨hsum, hline⟩

theorem Channel.Calm.lines (h : c.Calm) {e : List F} (he : ZeroBlock e) :
    ZeroBlock (chanLines cfg c e).1 ∧ (chanLines cfg c e).2.Calm := by
  have h0 : ZeroBlock (e.map fun _ => fzero) := by
    intro a ha
    obtain ⟨-, -, rfl⟩ := List.mem_map.1 ha
    exact isZero_fzero
  obtain ⟨hsum, hline⟩ := List.foldlRecOn
    (motive := fun acc : List F × Vector DelayLine 12 => ZeroBlock acc.1 ∧ ∀ j : Fin 12, acc.2[j].Calm)
    idx12 (chanLine cfg c.lines e) (b := (e.map fun _ => fzero, c.line)) ⟨h0, h.line⟩
    fun _ hacc j _ => calm_chanLine he hacc j
  exact ⟨hsum, h.hp, h.lp, h.pre, h.mt, h.ed, hline, h.inMix⟩

/-- The early taps and the sums over the lines are zero, and the channel is calm afterwards. -/
theorem Channel.Calm.proc (h : c.Calm) (hexp : ExpRange cfg) {x : List F} (hx : ZeroBlock x) :
    ZeroBlock (chanEarlyBlock cfg c x).1 ∧
    ZeroBlock (chanLines cfg (chanEarlyBlock cfg c x).2 (chanEarlyBlock cfg c x).1).1 ∧
    (chanProc cfg c x).2.Calm := by
  obtain ⟨he, hc⟩ := h.earlyBlock hexp hx
  exact ⟨he, hc.lines he⟩

/-! ## The mix (R314) -/

section
variable (hl : c.Legal) {x e sum : F} (hsum : isZero sum = true)
include hl hsum

theorem isZero_wetLines : isZero (fmul c.lineOut (fmul sum (lineScale c.lines))) = true :=
  isZero_fmul_right hl.lineOut (isZero_fmul hsum (isFinite_lineScale hl.lines))

variable (he : isZero e = true)
include he

theorem isZero_chanMix (hx : isZero x = true) : isZero (chanMix c x e sum) = true :=
  isZero_fadd (isZero_fadd (isZero_fmul_right hl.dry hx) (isZero_fmul_right hl.early he)) (isZero_wetLines hl hsum)

/-- With `+0` at the input and a dry weight that is not negative, the sum starts from `+0` and stays there. -/
theorem chanMix_fzero (hdry : signBit c.dry = false) : chanMix c fzero e sum = fzero := by
  rw [chanMix, fmul_fzero hl.dry hdry, fzero_fadd_of_isZero (isZero_fmul_right hl.early he),
    fzero_fadd_of_isZero (isZero_wetLines hl hsum)]

end

end

/-! ## A block keeps the premises on the configuration -/

/-- Every diffuser of the channel is in range. -/
structure Channel.TunedDiffusers (c : Channel) : Prop where
  ed : c.ed.Tuned
  df : ∀ j : Fin 12, c.line[j].df.Tuned

theorem DelayLine.tunedDiffuser_kept : DelayLine.Kept cfg fun l => l.df.Tuned where
  pop l h := by
    unfold DelayLine.pop
    split
    · exact h
    · exact h
  push l v h := by
    unfold DelayLine.push
    split
    · exact h
    · exact h
  delay _ _ h := h
  df _ v _ h := h.step v
  ls _ _ _ h := h
  hs _ _ _ h := h
  damp _ _ _ h := h

theorem Channel.tunedDiffusers_kept : Channel.Kept cfg Channel.TunedDiffusers where
  hp _ _ _ h := ⟨h.ed, h.df⟩
  lp _ _ _ h := ⟨h.ed, h.df⟩
  pre _ _ h := ⟨h.ed, h.df⟩
  mt _ _ _ h := ⟨h.ed, h.df⟩
  ed _ v _ h := ⟨h.ed.step v, h.df⟩
  line c j e h := by
    refine ⟨h.ed, fun k => ?_⟩
    show ((c.line.set j _)[k]).df.Tuned
    rw [vec_set_get]
    split
    · exact DelayLine.tunedDiffuser_kept.proc (h.df j) e
    · exact h.df k

theorem Multitap.SameSettings.tame {u w : Multitap} (h : u.SameSettings w) (ht : u.Tame) : w.Tame :=
  ⟨by rw [h.tapGain]; exact ht.gain, by rw [h.tapPos]; exact ht.pos⟩

theorem Shelf.SameSettings.tame {u w : Shelf} (h : u.SameSettings w) (ht : u.Tame) : w.Tame := by
  unfold Shelf.Tame
  rw [h.coeffs]
  exact ht

theorem Channel.Tame.proc {c : Channel} (h : c.Tame cfg) (x : List F) : (chanProc cfg c x).2.Tame cfg := by
  have hset := chanProc_sameSettings (cfg := cfg) c x
  have htuned : (chanProc cfg c x).2.TunedDiffusers := Channel.tunedDiffusers_kept.proc
    ⟨Diffuser.tuned_of_legal h.legal.ed h.ed, fun j => Diffuser.tuned_of_legal (h.legal.line j).df (h.df j)⟩ x
  exact {
    legal := h.legal.proc x
    coherent := ((Channel.fresh_of_legal h.legal h.coherent).proc x).coherent
    ed := htuned.ed.ranged
    df := fun j => (htuned.df j).ranged
    mt := hset.mt.tame h.mt
    fb := fun j => (congrArg isFinite (hset.line j).fb).trans (h.fb j)
    ls := fun j => (hset.line j).ls.tame (h.ls j)
    hs := fun j => (hset.line j).hs.tame (h.hs j) }

end

/-- Settles O49: a tame and silent channel is calm, a calm channel answers zeros with zeros, and its configuration stays as it
is. -/
theorem silentChannel : Obligations.SilentChannel := by
  unfold Obligations.SilentChannel
  intro cfg c x hexp ht hs hx
  obtain ⟨he, hsum, hcalm⟩ := (Channel.calm_of_tame ht hs).proc hexp hx
  rw [chanProc_fst]
  refine ⟨?_, hcalm.silent, ht.proc x, fun hplus hdry => ?_⟩
  · exact forall_mem_zipWith fun p hp s hsm => isZero_chanMix ht.legal (hsum s hsm) (he _ (List.of_mem_zip hp).2)
      (hx _ (List.of_mem_zip hp).1)
  · refine forall_mem_zipWith fun p hp s hsm => ?_
    rw [hplus _ (List.of_mem_zip hp).1]
    exact chanMix_fzero ht.legal (hsum s hsm) (he _ (List.of_mem_zip hp).2) hdry

end Sys2Proof.Machine
end
